-- ==== Sys2Proof/Word.lean ====
section
/-! DEFINITION. The widths the spec fixes (00_scope.md R10, R11): bit 0 is the least significant bit. -/

namespace Sys2Proof

/-- A register value, `u32` (R10: "every register field is 32 bits wide"). -/
abbrev Word := BitVec 32

/-- A byte, `u8`. -/
abbrev Byte := BitVec 8

/-- A 16-bit value, `u16` or `s16` (the decoder's raw value and outputs). -/
abbrev Half := BitVec 16

end Sys2Proof
end

