-- ==== Sys2Proof/Config.lean ====
section
/-! DEFINITION. What an implementation fixes (the parameters P_* of 00_scope.md R8) and the values the spec
leaves open: the word a read returns as `draw()`, the answers of the bus, the interleaving of the agents.
The open values are constants with no body, so no proof can see what they are. -/

namespace Sys2Proof

/-- One transaction on the 1-Wire line (10_state.md R40). -/
inductive BusEvent where
  /-- A reset pulse, and whether some device answered it with a presence pulse. -/
  | resetPulse (answered : Bool)
  /-- One write slot and the bit written. -/
  | writeSlot (b : Bool)
  /-- One read slot and the bit read. -/
  | readSlot (b : Bool)
  /-- A soft reset cut an operation off (40_handshake.md R108). -/
  | aborted
  deriving DecidableEq, Repr

/-- Whose move comes next. The agents of 00_scope.md R7 that move by themselves are the Host and the
Engine; the Host moves in two ways, by its next statement or by its interrupt handler. -/
inductive Move where
  /-- The Host runs its next statement (45_host_protocol.md R221). -/
  | host
  /-- The Host runs its interrupt handler, if it has one and the interrupt is up (R226). -/
  | handler
  /-- The Engine takes its step, if one is enabled (40_handshake.md R120, R124). -/
  | engine
  deriving DecidableEq, Repr, Inhabited

/-- The implementation parameters of 00_scope.md R8, one field each. -/
structure Params where
  /-- P_BASE -/
  base : Nat
  /-- P_OFF_INST -/
  offInst : Nat
  /-- P_OFF_CTRL -/
  offCtrl : Nat
  /-- P_OFF_IRQE -/
  offIrqe : Nat
  /-- P_OFF_STAT -/
  offStat : Nat
  /-- P_OFF_DATA -/
  offData : Nat
  /-- P_OFF_ID -/
  offId : Nat
  /-- P_ID_MAGIC -/
  idMagic : Word
  /-- P_BLOCK_SIZE -/
  blockSize : Nat
  /-- P_OP_RESET -/
  opReset : Word
  /-- P_OP_READBIT -/
  opReadBit : Word
  /-- P_OP_READBYTE -/
  opReadByte : Word
  /-- P_OP_WRITEBIT -/
  opWriteBit : Word
  /-- P_OP_WRITEBYTE -/
  opWriteByte : Word
  /-- P_STAT_DONE -/
  statDone : Nat
  /-- P_STAT_READY -/
  statReady : Nat
  /-- P_STAT_PRESENCE -/
  statPresence : Nat
  /-- P_CTRL_GO -/
  ctrlGo : Nat
  /-- P_CTRL_RESET -/
  ctrlReset : Nat
  /-- P_CTRL_IDLE -/
  ctrlIdle : Word
  /-- P_IRQE_DONE -/
  irqeDone : Nat
  /-- P_IRQE_READY -/
  irqeReady : Nat
  /-- P_PRESENCE_SET_MEANS_ABSENT -/
  presenceSetMeansAbsent : Bool
  /-- P_IRQ_WIRED -/
  irqWired : Bool
  /-- P_ENGINE_FAIR -/
  engineFair : Bool
  deriving DecidableEq, Repr

/-- P_BASE of the machine at reset. The spec leaves it OPEN (00_scope.md R8, 92 D26): a free value. Log 2. -/
opaque Config.base : Nat

/-- The n-th word a rule writes as `draw()`: any value (93_implementation_defined.md U9 to U17). Log 6. -/
opaque Config.draw : Nat → Word

/-- Whether a device answers a reset, after the given bus log (10_state.md R41, 41 R141). Log 4. -/
opaque Config.busPresence : List BusEvent → Bool

/-- The bit a read slot gives, after the given bus log (10_state.md R41, 41 R142). Log 4. -/
opaque Config.busRead : List BusEvent → Bool

/-- Whose move the n-th move is, where the state's schedule does not say (00_scope.md R7). Log 3. -/
opaque Config.moveAt : Nat → Move

/-- The default parameters of 00_scope.md R8. UNVERIFIED: the spec gives the numbers and marks them "(gk)", from
general knowledge. Log 1. -/
def Params.default : Params where
  base := Config.base
  offInst := 0x00
  offCtrl := 0x04
  offIrqe := 0x08
  offStat := 0x0C
  offData := 0x10
  offId := 0x1C
  idMagic := 0x10EE4453#32
  blockSize := 0x20
  opReset := 0x00000800#32
  opReadBit := 0x00000C00#32
  opReadByte := 0x00000D00#32
  opWriteBit := 0x00000E00#32
  opWriteByte := 0x00000F00#32
  statDone := 0
  statReady := 4
  statPresence := 31
  ctrlGo := 0
  ctrlReset := 31
  ctrlIdle := 0x00000000#32
  irqeDone := 0
  irqeReady := 4
  presenceSetMeansAbsent := true
  irqWired := true
  engineFair := true

end Sys2Proof
end

