-- ==== Sys2Proof/Machine/HostSyntax.lean ====
section
/-! DEFINITION. The statements of the Host agent (30_encoding.md R89, 45_host_protocol.md R221, R225) and the
primitive accesses of 00_scope.md R12. They are the language of the agent that drives the block, not
instructions of the block. -/

namespace Sys2Proof.Machine

/-- A host statement. Offsets, addresses, bit indices and labels are numbers; variables are x0 to x15. -/
inductive HostStmt where
  /-- WR off, imm -/
  | wr (off : Nat) (imm : Word)
  /-- RD xN, off -/
  | rd (x : Fin 16) (off : Nat)
  /-- POLL off, bit, v -/
  | poll (off bit : Nat) (v : Bool)
  /-- ANDI xN, xM, imm -/
  | andi (x m : Fin 16) (imm : Word)
  /-- ADDI xN, xM, imm -/
  | addi (x m : Fin 16) (imm : Word)
  /-- LI xN, imm -/
  | li (x : Fin 16) (imm : Word)
  /-- BEQI xN, imm, L -/
  | beqi (x : Fin 16) (imm : Word) (l : Nat)
  /-- BNEI xN, imm, L -/
  | bnei (x : Fin 16) (imm : Word) (l : Nat)
  /-- J L -/
  | j (l : Nat)
  /-- HALT -/
  | halt
  /-- xN <- MemRead(addr, bytes): the primitive of R12, at any address and width (R62). -/
  | memRead (x : Fin 16) (addr bytes : Nat)
  /-- MemWrite(addr, bytes, v): the primitive of R12, at any address and width (R62). -/
  | memWrite (addr bytes : Nat) (v : Word)
  /-- "suspend until notified == 1" of the blocking wait (R225). -/
  | suspend
  /-- "notified <- 0" of the blocking wait (R225). -/
  | clearNotified
  deriving DecidableEq, Repr

end Sys2Proof.Machine
end

