-- ==== Sys2Proof/Syntax.lean ====
section
/-! DEFINITION. The instruction set: the five bus operations (00_scope.md R2, R13; 41_bus_primitives.md R140),
one constructor per row of opcode_table.json. The spec's `BusOperation` is this type. -/

namespace Sys2Proof

/-- A bus operation with its operand. The operands have the widths of R10: one bit, one byte. -/
inductive Instr where
  /-- OW.RESET, Reset: bus reset and presence detect (R141). -/
  | owReset
  /-- OW.RDBIT, ReadBit: one read slot (R142). -/
  | owRdbit
  /-- OW.RDBYTE, ReadByte: eight read slots (R144). -/
  | owRdbyte
  /-- OW.WRBIT b, WriteBit(b): one write slot (R143). -/
  | owWrbit (b : Bool)
  /-- OW.WRBYTE d, WriteByte(d): eight write slots, bit 0 first (R145). -/
  | owWrbyte (d : Byte)
  deriving DecidableEq, Repr

end Sys2Proof
end

