-- ==== Sys2Proof/WellFormed.lean ====
section
/-! DEFINITION. What must hold of parameters, instructions and host programs before the rules speak of them. -/

namespace Sys2Proof

/-- No two entries are equal. -/
def allDistinct {α : Type} [DecidableEq α] : List α → Bool
  | [] => true
  | a :: as => !as.contains a && allDistinct as

/-- The six register offsets of 10_state.md R22. -/
def Params.offsets (P : Params) : List Nat :=
  [P.offInst, P.offCtrl, P.offIrqe, P.offStat, P.offData, P.offId]

/-- The five instruction codes. -/
def Params.codes (P : Params) : List Word :=
  [P.opReset, P.opReadBit, P.opReadByte, P.opWriteBit, P.opWriteByte]

/-- R9, offsets: distinct, multiples of 4, below P_BLOCK_SIZE. -/
def Params.offsetsOk (P : Params) : Bool :=
  allDistinct P.offsets && P.offsets.all (fun o => o % 4 == 0 && decide (o < P.blockSize))

/-- R9, codes: distinct, bits 7:0 clear. (That no code with an operand collides with another code follows:
`Laws.params_codes_collide_nowhere`.) -/
def Params.codesOk (P : Params) : Bool :=
  allDistinct P.codes && P.codes.all (fun c => c &&& 0xFF#32 == 0#32)

/-- R9, Status: three distinct bit indices of a 32-bit word. -/
def Params.statOk (P : Params) : Bool :=
  allDistinct [P.statDone, P.statReady, P.statPresence] &&
    [P.statDone, P.statReady, P.statPresence].all (fun i => decide (i < 32))

/-- R9, Control: two distinct bit indices of a 32-bit word, and an idle value with both bits clear. DEDUCED:
the idle value sets no reserved bit either, since 40_handshake.md R104 would fault on it. Log 12. -/
def Params.ctrlOk (P : Params) : Bool :=
  decide (P.ctrlGo ≠ P.ctrlReset) && decide (P.ctrlGo < 32) && decide (P.ctrlReset < 32) &&
    P.ctrlIdle == 0#32

/-- R9, Interrupt-Enable: two distinct bit indices of a 32-bit word. -/
def Params.irqeOk (P : Params) : Bool :=
  decide (P.irqeDone ≠ P.irqeReady) && decide (P.irqeDone < 32) && decide (P.irqeReady < 32)

/-- The structural constraints of 00_scope.md R9. -/
def Params.wellFormed (P : Params) : Bool :=
  P.offsetsOk && P.codesOk && P.statOk && P.ctrlOk && P.irqeOk

/-- The operand range of R10 is the operand's type (one bit, one byte), so there is nothing left to check:
every term of `Instr` is an instruction of the block. -/
def Instr.wellFormed : Instr → Bool
  | .owReset => true
  | .owRdbit => true
  | .owRdbyte => true
  | .owWrbit _ => true
  | .owWrbyte _ => true

/-- A statement of a program of n statements: POLL tests a bit of a 32-bit word (R221 `t[i]`), and a
branch goes to a statement of the program. -/
def Machine.HostStmt.wellFormed (n : Nat) : Machine.HostStmt → Bool
  | .poll _ bit _ => decide (bit < 32)
  | .beqi _ _ l => decide (l < n)
  | .bnei _ _ l => decide (l < n)
  | .j l => decide (l < n)
  | .wr _ _ => true
  | .rd _ _ => true
  | .andi _ _ _ => true
  | .addi _ _ _ => true
  | .li _ _ => true
  | .halt => true
  | .memRead _ _ _ => true
  | .memWrite _ _ _ => true
  | .suspend => true
  | .clearNotified => true

/-- A host program whose statements are all well-formed. -/
def Machine.programWellFormed (prog : List Machine.HostStmt) : Bool :=
  prog.all (Machine.HostStmt.wellFormed prog.length)

end Sys2Proof
end

