-- ==== Sys2Proof/Decode.lean ====
section
/-! DEFINITION. The instruction word (30_encoding.md): decoding (R83), the names of what is rejected (R85),
encoding (R82), the opcode table's rows, and the word laid out in bytes. -/

namespace Sys2Proof

/-- The decoding function `dec` of R83, branch by branch. -/
def dec (P : Params) (w : Word) : Option Instr :=
  if w = P.opReset then some .owReset
  else if w = P.opReadBit then some .owRdbit
  else if w = P.opReadByte then some .owRdbyte
  else if w &&& ~~~1#32 = P.opWriteBit then some (.owWrbit (w.getLsbD 0))
  else if w &&& ~~~0xFF#32 = P.opWriteByte then some (.owWrbyte (w.setWidth 8))
  else none

/-- Why a word or a run of bytes is no instruction. -/
inductive Reject where
  /-- The word without its operand bits is none of the five codes (R85). -/
  | noSuchCode
  /-- The code is known, but operand bits are set that its operation does not have (R85). -/
  | operandBits
  /-- The bytes are not the four of one word (R87: there is one length). -/
  | wrongLength
  deriving DecidableEq, Repr

/-- The name under which a reserved word (R85) is rejected. -/
def rejectName (P : Params) (w : Word) : Reject :=
  if P.codes.contains (w &&& ~~~0xFF#32) then .operandBits else .noSuchCode

/-- Decoding that says why it rejects. -/
def decode (P : Params) (w : Word) : Except Reject Instr :=
  match dec P w with
  | some i => .ok i
  | none => .error (rejectName P w)

/-- The code of an operation (R8), its operand 0. -/
def Instr.code (P : Params) : Instr → Word
  | .owReset => P.opReset
  | .owRdbit => P.opReadBit
  | .owRdbyte => P.opReadByte
  | .owWrbit _ => P.opWriteBit
  | .owWrbyte _ => P.opWriteByte

/-- The operand, zero-extended (R82); 0 where there is none. -/
def Instr.operand : Instr → Word
  | .owReset => 0#32
  | .owRdbit => 0#32
  | .owRdbyte => 0#32
  | .owWrbit b => (BitVec.ofBool b).setWidth 32
  | .owWrbyte d => d.setWidth 32

/-- The encoding function `enc` of R82: "OR the operand into the low bits of the code". -/
def encode (P : Params) (i : Instr) : Word :=
  i.code P ||| i.operand

/-- The opcode table's rows as mask and match, in R83's order (R84). -/
def opcodeRows (P : Params) : List (Word × Word) :=
  [(0xFFFFFFFF#32, P.opReset), (0xFFFFFFFF#32, P.opReadBit), (0xFFFFFFFF#32, P.opReadByte),
   (0xFFFFFFFE#32, P.opWriteBit), (0xFFFFFF00#32, P.opWriteByte)]

/-- Whether a word matches a row. -/
def rowMatches (w : Word) (row : Word × Word) : Bool :=
  w &&& row.1 == row.2

/-- The four byte lanes of a word, lane 0 = bits 7:0 (20_memory.md R63, from general knowledge; no rule
depends on it). PRESUMED, log 8. -/
def wordBytes (w : Word) : List Byte :=
  [w.extractLsb' 0 8, w.extractLsb' 8 8, w.extractLsb' 16 8, w.extractLsb' 24 8]

/-- The word of four byte lanes. -/
def bytesWord (b0 b1 b2 b3 : Byte) : Word :=
  b3 ++ b2 ++ b1 ++ b0

/-- Decoding an instruction laid out in bytes: total on any bytes. -/
def decodeBytes (P : Params) : List Byte → Except Reject Instr
  | [b0, b1, b2, b3] => decode P (bytesWord b0 b1 b2 b3)
  | _ => .error .wrongLength

/-- The word of a table row: the low `nbits` bits of w, the bits above zero. -/
def tableWord (nbits w : Nat) : Word :=
  BitVec.ofNat 32 (w % 2 ^ nbits)

/-- What the decoder reads from an instruction with the bits w, numbered as opcode_table.json numbers them,
under the default parameters (the table's words are the default codes). -/
def decodeTableWord (nbits w : Nat) : Option Instr :=
  (decodeBytes Params.default (wordBytes (tableWord nbits w))).toOption

end Sys2Proof
end

