-- ==== Sys2Proof/Machine/State.lean ====
section
/-! DEFINITION. The state of the block and of the agents around it (10_state.md, 45_host_protocol.md R221), the
reasons a step stops, and the state after reset (10_state.md R50). -/

namespace Sys2Proof.Machine

/-- The engine phase (10_state.md R30, R31): the operation in BUSY and DONE is the one decoded at the
accepted Go, with its operand. -/
inductive Phase where
  /-- IDLE: the pipeline is at rest, Ready is 1. -/
  | idle
  /-- BUSY(op): Go was accepted and op is in progress on the bus. -/
  | busy (op : Instr)
  /-- DONE(op): op finished, its result is valid and Done is 1. -/
  | done (op : Instr)
  /-- RECOVER: Go has been cleared, or reset released, and Ready is not yet raised again. -/
  | recover
  /-- RESET_HELD: CTRL.RESET is 1. -/
  | resetHeld
  deriving DecidableEq, Repr

/-- The reasons of 60_exceptions.md R262. Each is recorded in `State.fault` by the Host's move that raises it,
and answered by `step` from then on (R263). All are SAFE: a chip may go on where the model stops. -/
inductive Fault where
  /-- BadAccess: raised by a register access of another width than 32 bits, at an offset that is misaligned,
  outside the block or reserved, or by a write of STAT, DATA or ID (R62, R22). Safe. -/
  | badAccess
  /-- ReservedBits: raised by an IRQE or CTRL write with a bit set outside the defined fields (R27, R104). Safe. -/
  | reservedBits
  /-- ReservedInstruction: raised by a Go accepted while inst_reg holds a word `dec` rejects (R105). Safe. -/
  | reservedInstruction
  /-- InstWhileNotIdle: raised by an INST write in any phase but IDLE (R103). Safe. -/
  | instWhileNotIdle
  /-- GoWhileNotIdle: raised by a CTRL write with GO = 1, RESET = 0 in any phase but IDLE (R106). Safe. -/
  | goWhileNotIdle
  /-- ClearWhileBusy: raised by a CTRL write with GO = 0, RESET = 0 in phase BUSY (R107). Safe. -/
  | clearWhileBusy
  /-- GoAndReset: raised by a CTRL write with GO = 1 and RESET = 1 (R109). Safe. -/
  | goAndReset
  /-- HostUnwritten: raised by a host statement that reads a variable never written (R221). Safe. -/
  | hostUnwritten
  deriving DecidableEq, Repr

/-- Why there is no meaning. No step of this model answers a refusal: every instruction has its meaning. -/
inductive Refusal where
  /-- An instruction whose arm of `exec` has no meaning yet. Raised by no arm of this model. Safe. -/
  | notModelled (mnemonic : String)
  deriving DecidableEq, Repr

/-- The Host agent: its program and variables (45_host_protocol.md R221) and the flag and handler of the
blocking wait (R225, R226). None of it is hardware state (00_scope.md R5). -/
structure HostState where
  /-- The host program. -/
  prog : List HostStmt
  /-- hpc, the statement index. -/
  hpc : Nat
  /-- x0 to x15, each unwritten until first written. -/
  vars : Vector (Option Word) 16
  /-- The notification flag of R225. -/
  notified : Bool
  /-- Whether the Host has installed the interrupt handler of R226. -/
  handler : Bool
  deriving DecidableEq, Repr

/-- The Host before anything is loaded: no program, at the first statement, no variable written (R221).
The empty program, the clear flag and the missing handler are DESIGN CHOICE. Log 5. -/
def HostState.initial : HostState where
  prog := []
  hpc := 0
  vars := Vector.replicate 16 none
  notified := false
  handler := false

/-- The whole machine. -/
structure State where
  /-- The parameters of 00_scope.md R8, fixed for the machine. -/
  params : Params
  /-- inst_reg, the INST register (R24). -/
  instReg : Word
  /-- irqe_ready_en of IRQE (R27). -/
  irqeReadyEn : Bool
  /-- irqe_done_en of IRQE (R27). -/
  irqeDoneEn : Bool
  /-- The engine phase (R30), in which CTRL's GO and RESET live too (R25). -/
  phase : Phase
  /-- rx_data, the result latch of a read operation (R32). -/
  rxData : Byte
  /-- presence_flag, the result latch of a Reset operation (R33). -/
  presenceFlag : Bool
  /-- The sticky fault record (R34). -/
  fault : Option Fault
  /-- bus_log, every transaction on the 1-Wire line in order (R40). -/
  busLog : List BusEvent
  /-- The bus answers not yet consumed, first one next (the oracle's input; log 4). -/
  busAnswers : List Bool
  /-- The Host agent. -/
  host : HostState
  /-- The coming moves, first one next (the interleaving's input; log 3). -/
  schedule : List Move
  /-- How many moves were made: the index of `Config.moveAt`. -/
  turn : Nat
  /-- How many words were drawn: the index of `Config.draw`. -/
  draws : Nat
  deriving DecidableEq, Repr

/-- The machine after hardware reset (10_state.md R50, 70_reset_and_hazards.md R290): phase RECOVER, no fault, an empty bus
log; INST, the interrupt enables and the result latches hold `draw()`. Log 6; the inputs are empty, logs
3 to 5. -/
def State.reset : State where
  params := Params.default
  instReg := Config.draw 0
  irqeReadyEn := (Config.draw 1).getLsbD 0
  irqeDoneEn := (Config.draw 2).getLsbD 0
  phase := .recover
  rxData := (Config.draw 4).setWidth 8
  presenceFlag := (Config.draw 3).getLsbD 0
  fault := none
  busLog := []
  busAnswers := []
  host := HostState.initial
  schedule := []
  turn := 0
  draws := 5

end Sys2Proof.Machine
end

