-- ==== Sys2Proof/Machine/Ops.lean ====
section
/-! DEFINITION. The named operations over the state: raising a fault, drawing a free value, one answer of the
bus, one slot, the end of an operation, the next move of the interleaving, the host's variables. -/

namespace Sys2Proof.Machine

/-! ### Bits -/

/-- Bit i of w set to b (R11). -/
def setBit (w : Word) (i : Nat) (b : Bool) : Word :=
  if b then w ||| 1#32 <<< i else w &&& ~~~(1#32 <<< i)

/-- The mask `1 << i` of R89. -/
def bitMask (i : Nat) : Word :=
  1#32 <<< i

/-! ### Taking a fault (60_exceptions.md R262) -/

/-- `raise Fault(reason)` of 00_scope.md R12: the reason is recorded and nothing else changes. -/
def State.raise (f : Fault) (s : State) : State :=
  { s with fault := some f }

/-- No fault on record. No step does this (60_exceptions.md R263: "no step clears it"); only the placing of an
instruction uses it (log 11). -/
def State.clearFault (s : State) : State :=
  { s with fault := none }

/-! ### Free values -/

/-- The word the next `draw()` gives. -/
def State.drawn (s : State) : Word :=
  Config.draw s.draws

/-- The state after n words are drawn. -/
def State.advanceDraws (n : Nat) (s : State) : State :=
  { s with draws := s.draws + n }

/-! ### The engine's phase and the bus -/

/-- `phase <- p` of R30. -/
def State.setPhase (p : Phase) (s : State) : State :=
  { s with phase := p }

/-- `bus_log <- bus_log ++ es` (R40). -/
def State.logEvents (es : List BusEvent) (s : State) : State :=
  { s with busLog := s.busLog ++ es }

/-- The oracle's answer to a reset: the next pending answer, else any value that may depend on the log (R41). -/
def State.presenceAnswer (s : State) : Bool :=
  s.busAnswers.headD (Config.busPresence s.busLog)

/-- The oracle's answer to a read slot: the next pending answer, else any value that may depend on the log
(R41). -/
def State.readAnswer (s : State) : Bool :=
  s.busAnswers.headD (Config.busRead s.busLog)

/-- The first pending answer, if there is one, is consumed. -/
def State.popAnswer (s : State) : State :=
  { s with busAnswers := s.busAnswers.tail }

/-- One read slot on the line (R144's loop body): the answer is consumed and logged. -/
def State.afterReadSlot (s : State) : State :=
  s.popAnswer.logEvents [.readSlot s.readAnswer]

/-- The bits of n read slots, in slot order. -/
def State.slotBits : Nat → State → List Bool
  | 0, _ => []
  | n + 1, s => s.readAnswer :: State.slotBits n s.afterReadSlot

/-- The state after n read slots. -/
def State.afterReadSlots : Nat → State → State
  | 0, s => s
  | n + 1, s => State.afterReadSlots n s.afterReadSlot

/-- `rx_data <- v` (R32). -/
def State.setRx (v : Byte) (s : State) : State :=
  { s with rxData := v }

/-- `presence_flag <- b` (R33). -/
def State.setPresence (b : Bool) (s : State) : State :=
  { s with presenceFlag := b }

/-! ### The block's registers -/

/-- `inst_reg <- v` (R24). -/
def State.setInst (v : Word) (s : State) : State :=
  { s with instReg := v }

/-- The two enables of IRQE (R27). -/
def State.setEnables (ready done : Bool) (s : State) : State :=
  { s with irqeReadyEn := ready, irqeDoneEn := done }

/-! ### The interleaving -/

/-- Whose move comes next: the schedule's first, else any agent's (00_scope.md R7). -/
def State.nextMove (s : State) : Move :=
  s.schedule.headD (Config.moveAt s.turn)

/-- The interleaving one move further. -/
def State.popMove (s : State) : State :=
  { s with schedule := s.schedule.tail, turn := s.turn + 1 }

/-! ### The Host agent -/

/-- The Host's own state replaced. -/
def State.setHost (h : HostState) (s : State) : State :=
  { s with host := h }

/-- The value of xN; reading an unwritten variable faults HostUnwritten (R221). -/
def HostState.readVar (x : Fin 16) (h : HostState) : Except Fault Word :=
  match h.vars[x] with
  | some v => .ok v
  | none => .error .hostUnwritten

/-- `xN <- v`. -/
def HostState.writeVar (x : Fin 16) (v : Word) (h : HostState) : HostState :=
  { h with vars := h.vars.set x (some v) }

/-- `hpc <- hpc + 1`. -/
def HostState.advance (h : HostState) : HostState :=
  { h with hpc := h.hpc + 1 }

/-- `hpc <- l`. -/
def HostState.jump (l : Nat) (h : HostState) : HostState :=
  { h with hpc := l }

/-- `notified <- b` (R225). -/
def HostState.setNotified (b : Bool) (h : HostState) : HostState :=
  { h with notified := b }

end Sys2Proof.Machine
end

