-- ==== Sys2Proof/Machine/Operands.lean ====
section
/-! DEFINITION. The operand forms: the slots of a byte operand, the byte of eight read slots, and the register a
host access names by its offset or address (10_state.md R22, 20_memory.md R62). -/

namespace Sys2Proof.Machine

/-! ### Bytes on the wire: bit 0 first (41_bus_primitives.md R144, R145)

UNVERIFIED: the spec marks the order as general knowledge (93_implementation_defined.md G4). Log 17. -/

/-- The eight bits of a byte in slot order, bit 0 first (41_bus_primitives.md R145). -/
def byteBits (v : Byte) : List Bool :=
  (List.range 8).map v.getLsbD

/-- "sum over i of (b_i << i)" (41_bus_primitives.md R144). -/
def bitsByte : List Bool → Byte
  | [] => 0#8
  | b :: bs => bitsByte bs <<< 1 ||| (BitVec.ofBool b).setWidth 8

/-- `{draw()[6:0], b}` (41_bus_primitives.md R142). -/
def bitByte (d : Word) (b : Bool) : Byte :=
  d.extractLsb' 0 7 ++ BitVec.ofBool b

/-! ### The register a host access names -/

/-- The six registers of 10_state.md R22. -/
inductive Reg where
  /-- INST -/
  | inst
  /-- CTRL -/
  | ctrl
  /-- IRQE -/
  | irqe
  /-- STAT -/
  | stat
  /-- DATA -/
  | data
  /-- ID -/
  | id
  deriving DecidableEq, Repr

/-- The register map of R22; a reserved offset names none. -/
def regAt (P : Params) (off : Nat) : Option Reg :=
  if off = P.offInst then some .inst
  else if off = P.offCtrl then some .ctrl
  else if off = P.offIrqe then some .irqe
  else if off = P.offStat then some .stat
  else if off = P.offData then some .data
  else if off = P.offId then some .id
  else none

/-- The offset of a register, the other direction of the map. -/
def Reg.offset (P : Params) : Reg → Nat
  | .inst => P.offInst
  | .ctrl => P.offCtrl
  | .irqe => P.offIrqe
  | .stat => P.offStat
  | .data => P.offData
  | .id => P.offId

/-- The register an access of the given width names, or BadAccess: only an aligned 32-bit access inside the
block at a defined offset is admitted (20_memory.md R62, 10_state.md R22). -/
def accessReg (P : Params) (off bytes : Nat) : Except Fault Reg :=
  if bytes = 4 ∧ off % 4 = 0 ∧ off < P.blockSize then
    match regAt P off with
    | some r => .ok r
    | none => .error .badAccess
  else .error .badAccess

/-- The offset of an address, or BadAccess below P_BASE (R62: outside the block). -/
def offsetOf (P : Params) (addr : Nat) : Except Fault Nat :=
  if P.base ≤ addr then .ok (addr - P.base) else .error .badAccess

end Sys2Proof.Machine
end

