-- ==== Sys2Proof/Machine/Flags.lean ====
section
/-! DEFINITION. The flags: Ready, Done and Presence of STAT (10_state.md R28), the DATA word (R29), the interrupt
output (60_exceptions.md R266). The flags crc_ok and res_warn stand with their units (Crc.lean, Temperature.lean). -/

namespace Sys2Proof.Machine

/-- Ready: phase == IDLE (R28). -/
def Phase.ready : Phase → Bool
  | .idle => true
  | .busy _ => false
  | .done _ => false
  | .recover => false
  | .resetHeld => false

/-- Done: phase is DONE(_) (R28). -/
def Phase.isDone : Phase → Bool
  | .idle => false
  | .busy _ => false
  | .done _ => true
  | .recover => false
  | .resetHeld => false

/-- The presence flag a Reset latches, for the given polarity (41_bus_primitives.md R141, 10_state.md R33). -/
def presenceOf (P : Params) (answered : Bool) : Bool :=
  if P.presenceSetMeansAbsent then !answered else answered

/-- The word a STAT read gives (R28), over the drawn word d. -/
def statWord (s : State) (d : Word) : Word :=
  let flags := setBit (setBit d s.params.statReady s.phase.ready) s.params.statDone s.phase.isDone
  match s.phase with
  | .done .owReset => setBit flags s.params.statPresence s.presenceFlag
  | _ => flags

/-- The word a DATA read gives (R29), over the drawn word d. -/
def dataWord (s : State) (d : Word) : Word :=
  match s.phase with
  | .done .owRdbit => setBit d 0 (s.rxData.getLsbD 0)
  | .done .owRdbyte => d.extractLsb' 8 24 ++ s.rxData
  | _ => d

/-- The interrupt output, a level (60_exceptions.md R266). -/
def State.irq (s : State) : Bool :=
  s.params.irqWired && (s.irqeReadyEn && s.phase.ready || s.irqeDoneEn && s.phase.isDone)

end Sys2Proof.Machine
end

