-- ==== Sys2Proof/Machine/BusOperations.lean ====
section
/-! DEFINITION. The meanings of the five bus operations (41_bus_primitives.md R141 to R145): `perform(op)` and then
`phase <- DONE(op)`, the Engine's completion step (40_handshake.md R120). None can fault (R140). -/

namespace Sys2Proof.Machine

/-- OW.RESET (R141): the line's answer is logged and latched with the polarity of R33. -/
def execReset (s : State) : Host.Outcome State Fault Refusal :=
  let answered := s.presenceAnswer
  .next (((s.popAnswer.logEvents [.resetPulse answered]).setPresence (presenceOf s.params answered)).setPhase
    (.done .owReset))

/-- OW.RDBIT (R142): one read slot; only bit 0 of the latch is defined. -/
def execRdbit (s : State) : Host.Outcome State Fault Refusal :=
  .next (((s.afterReadSlot.setRx (bitByte s.drawn s.readAnswer)).advanceDraws 1).setPhase (.done .owRdbit))

/-- OW.WRBIT b (R143): one write slot. -/
def execWrbit (b : Bool) (s : State) : Host.Outcome State Fault Refusal :=
  .next ((s.logEvents [.writeSlot b]).setPhase (.done (.owWrbit b)))

/-- OW.RDBYTE (R144): eight read slots, bit 0 first. -/
def execRdbyte (s : State) : Host.Outcome State Fault Refusal :=
  .next (((s.afterReadSlots 8).setRx (bitsByte (s.slotBits 8))).setPhase (.done .owRdbyte))

/-- OW.WRBYTE d (R145): eight write slots, bit 0 first. -/
def execWrbyte (d : Byte) (s : State) : Host.Outcome State Fault Refusal :=
  .next ((s.logEvents ((byteBits d).map .writeSlot)).setPhase (.done (.owWrbyte d)))

end Sys2Proof.Machine
end

