-- ==== Sys2Proof/Machine/Dispatch.lean ====
section
/-! DEFINITION. One arm per bus operation. -/

namespace Sys2Proof.Machine

def exec (i : Instr) (s : State) : Host.Outcome State Fault Refusal :=
  match i with
  | .owReset => Sys2Proof.Machine.execReset s
  | .owRdbit => Sys2Proof.Machine.execRdbit s
  | .owRdbyte => Sys2Proof.Machine.execRdbyte s
  | .owWrbit b => Sys2Proof.Machine.execWrbit b s
  | .owWrbyte d => Sys2Proof.Machine.execWrbyte d s

end Sys2Proof.Machine
end

