-- ==== Sys2Proof/Machine/Engine.lean ====
section
/-! DEFINITION. The Engine's move: it completes the operation in BUSY, raises Ready in RECOVER, and has no step in
the other phases (40_handshake.md R120, R122, R124). -/

namespace Sys2Proof.Machine

/-- Whether the Engine has a step (R120, R122, R124). -/
def Phase.engineEnabled : Phase → Bool
  | .idle => false
  | .busy _ => true
  | .done _ => false
  | .recover => true
  | .resetHeld => false

/-- The Engine's move. -/
def engineMove (s : State) : Host.Outcome State Fault Refusal :=
  match s.phase with
  | .busy op => exec op s
  | .recover => .next (s.setPhase .idle)
  | .idle => .next s
  | .done _ => .next s
  | .resetHeld => .next s

/-- The block right after the Host has written `w` to INST and Go to CTRL in IDLE: BUSY with the operation
decoded, or the fault ReservedInstruction on record (40_handshake.md R103, R105). -/
def issueWord (s : State) (w : Word) : State :=
  match dec s.params w with
  | some op => (s.setInst w).setPhase (.busy op)
  | none => ((s.setInst w).setPhase .idle).raise .reservedInstruction

end Sys2Proof.Machine
end

