-- ==== Sys2Proof/Machine/Registers.lean ====
section
/-! DEFINITION. The register block: what a host read returns and what a host write does (10_state.md R22 to R29,
40_handshake.md R102 to R109). A write answers the state after it, or the one fault it raises (60_exceptions.md R264). -/

namespace Sys2Proof.Machine

/-! ### Reads -/

/-- A read of a register: the word, and the state with the word drawn. No read changes the block
(20_memory.md R65). -/
def readReg (r : Reg) (s : State) : Word × State :=
  match r with
  | .inst => (s.drawn, s.advanceDraws 1)
  | .ctrl => (s.drawn, s.advanceDraws 1)
  | .irqe => (s.drawn, s.advanceDraws 1)
  | .stat => (statWord s s.drawn, s.advanceDraws 1)
  | .data => (dataWord s s.drawn, s.advanceDraws 1)
  | .id => (s.params.idMagic, s)

/-! ### Writes -/

/-- INST write (40_handshake.md R103). -/
def writeInst (v : Word) (s : State) : Except Fault State :=
  match s.phase with
  | .idle => .ok (s.setInst v)
  | .busy _ => .error .instWhileNotIdle
  | .done _ => .error .instWhileNotIdle
  | .recover => .error .instWhileNotIdle
  | .resetHeld => .error .instWhileNotIdle

/-- CTRL write with GO = 1, RESET = 0 (R105 in IDLE, R106 elsewhere). -/
def writeGo (s : State) : Except Fault State :=
  match s.phase with
  | .idle =>
    match dec s.params s.instReg with
    | some op => .ok (s.setPhase (.busy op))
    | none => .error .reservedInstruction
  | .busy _ => .error .goWhileNotIdle
  | .done _ => .error .goWhileNotIdle
  | .recover => .error .goWhileNotIdle
  | .resetHeld => .error .goWhileNotIdle

/-- CTRL write with GO = 0, RESET = 0: ClearGo, or the release of a soft reset (R107). -/
def writeClearGo (s : State) : Except Fault State :=
  match s.phase with
  | .idle => .ok s
  | .busy _ => .error .clearWhileBusy
  | .done _ => .ok (s.setPhase .recover)
  | .recover => .ok s
  | .resetHeld => .ok (s.setPhase .recover)

/-- The latches and enables after a soft reset: draws (R108). -/
def State.dropResults (s : State) : State :=
  ((s.setPresence (s.drawn.getLsbD 0)).setRx ((s.advanceDraws 1).drawn.setWidth 8)).setEnables
    ((s.advanceDraws 2).drawn.getLsbD 0) ((s.advanceDraws 3).drawn.getLsbD 0) |>.advanceDraws 4

/-- CTRL write with GO = 0, RESET = 1: soft reset (R108). In RESET_HELD it is "no change" (R102, R108). Log 9. -/
def writeSoftReset (s : State) : State :=
  match s.phase with
  | .idle => s.dropResults.setPhase .resetHeld
  | .busy _ => (s.logEvents [.aborted]).dropResults.setPhase .resetHeld
  | .done _ => s.dropResults.setPhase .resetHeld
  | .recover => s.dropResults.setPhase .resetHeld
  | .resetHeld => s

/-- The bits a CTRL write may set (R104). -/
def ctrlMask (P : Params) : Word :=
  bitMask P.ctrlGo ||| bitMask P.ctrlReset

/-- CTRL write (R104): reserved bits first, then by GO and RESET. -/
def writeCtrl (v : Word) (s : State) : Except Fault State :=
  if v &&& ~~~ctrlMask s.params ≠ 0#32 then .error .reservedBits
  else
    match v.getLsbD s.params.ctrlGo, v.getLsbD s.params.ctrlReset with
    | true, false => writeGo s
    | false, false => writeClearGo s
    | false, true => .ok (writeSoftReset s)
    | true, true => .error .goAndReset

/-- The bits an IRQE write may set (R27). -/
def irqeMask (P : Params) : Word :=
  bitMask P.irqeReady ||| bitMask P.irqeDone

/-- IRQE write (R27): legal in every phase. -/
def writeIrqe (v : Word) (s : State) : Except Fault State :=
  if v &&& ~~~irqeMask s.params ≠ 0#32 then .error .reservedBits
  else .ok (s.setEnables (v.getLsbD s.params.irqeReady) (v.getLsbD s.params.irqeDone))

/-- A write of a register; STAT, DATA and ID are read-only (R22). -/
def writeReg (r : Reg) (v : Word) (s : State) : Except Fault State :=
  match r with
  | .inst => writeInst v s
  | .ctrl => writeCtrl v s
  | .irqe => writeIrqe v s
  | .stat => .error .badAccess
  | .data => .error .badAccess
  | .id => .error .badAccess

/-! ### The register port -/

/-- A host read of `bytes` bytes at an offset of the block. -/
def portRead (off bytes : Nat) (s : State) : Except Fault (Word × State) :=
  match accessReg s.params off bytes with
  | .ok r => .ok (readReg r s)
  | .error f => .error f

/-- A host write of `bytes` bytes at an offset of the block. -/
def portWrite (off bytes : Nat) (v : Word) (s : State) : Except Fault State :=
  match accessReg s.params off bytes with
  | .ok r => writeReg r v s
  | .error f => .error f

/-- `MemRead(addr, bytes)` of 00_scope.md R12. -/
def memRead (addr bytes : Nat) (s : State) : Except Fault (Word × State) :=
  match offsetOf s.params addr with
  | .ok off => portRead off bytes s
  | .error f => .error f

/-- `MemWrite(addr, bytes, v)` of 00_scope.md R12. -/
def memWrite (addr bytes : Nat) (v : Word) (s : State) : Except Fault State :=
  match offsetOf s.params addr with
  | .ok off => portWrite off bytes v s
  | .error f => .error f

end Sys2Proof.Machine
end

