-- ==== Sys2Proof/Machine/HostAgent.lean ====
section
/-! DEFINITION. The Host's moves: one statement (45_host_protocol.md R221, R225) and the interrupt handler (R226).
A statement answers the state after it, or the fault it raises. -/

namespace Sys2Proof.Machine

/-- `hpc <- hpc + 1` in the whole state. -/
def State.hostAdvance (s : State) : State :=
  s.setHost s.host.advance

/-- `xN <- v`, then `hpc <- hpc + 1`. -/
def State.hostAssign (x : Fin 16) (v : Word) (s : State) : State :=
  s.setHost (s.host.writeVar x v).advance

/-- `xN <- v` where v comes from a register access; a fault of the access goes through. -/
def hostLoad (x : Fin 16) (access : Except Fault (Word × State)) : Except Fault State :=
  match access with
  | .ok (v, t) => .ok (t.hostAssign x v)
  | .error f => .error f

/-- A register write, then `hpc <- hpc + 1`; a fault of the access goes through. -/
def hostStore (access : Except Fault State) : Except Fault State :=
  match access with
  | .ok t => .ok t.hostAdvance
  | .error f => .error f

/-- `xN <- f xM`, then `hpc <- hpc + 1`. -/
def hostCompute (x m : Fin 16) (f : Word → Word) (s : State) : Except Fault State :=
  match s.host.readVar m with
  | .ok v => .ok (s.hostAssign x (f v))
  | .error e => .error e

/-- A branch on xN: to l where the test holds, else to the next statement. -/
def hostBranch (x : Fin 16) (test : Word → Bool) (l : Nat) (s : State) : Except Fault State :=
  match s.host.readVar x with
  | .ok v => .ok (if test v then s.setHost (s.host.jump l) else s.hostAdvance)
  | .error e => .error e

/-- One POLL iteration: one read, then on or stay (R221). -/
def hostPoll (off bit : Nat) (v : Bool) (s : State) : Except Fault State :=
  match portRead off 4 s with
  | .ok (t, s') => .ok (if t.getLsbD bit = v then s'.hostAdvance else s')
  | .error f => .error f

/-- One host statement (R221, R225). -/
def hostStmt (st : HostStmt) (s : State) : Except Fault State :=
  match st with
  | .wr off imm => hostStore (portWrite off 4 imm s)
  | .rd x off => hostLoad x (portRead off 4 s)
  | .poll off bit v => hostPoll off bit v s
  | .andi x m imm => hostCompute x m (fun v => v &&& imm) s
  | .addi x m imm => hostCompute x m (fun v => v + imm) s
  | .li x imm => .ok (s.hostAssign x imm)
  | .beqi x imm l => hostBranch x (fun v => v == imm) l s
  | .bnei x imm l => hostBranch x (fun v => v != imm) l s
  | .j l => .ok (s.setHost (s.host.jump l))
  | .halt => .ok s
  | .memRead x addr bytes => hostLoad x (memRead addr bytes s)
  | .memWrite addr bytes v => hostStore (memWrite addr bytes v s)
  | .suspend => .ok (if s.host.notified then s.hostAdvance else s)
  | .clearNotified => .ok (s.setHost (s.host.setNotified false).advance)

/-- The statement at hpc, if the program has one there. -/
def HostState.current (h : HostState) : Option HostStmt :=
  h.prog[h.hpc]?

/-- The Host's move: its current statement. A statement that faults leaves the fault record and nothing
else (60_exceptions.md R262). Where the program has no statement, the Host does nothing. DESIGN CHOICE, log 10. -/
def hostMove (s : State) : State :=
  match s.host.current with
  | none => s
  | some st =>
    match hostStmt st s with
    | .ok t => t
    | .error f => s.raise f

/-- Whether the Host still moves: at HALT there is "no further host step" (R221), and where the program has no
statement there is none either (DESIGN CHOICE, log 10). -/
def HostState.running (h : HostState) : Bool :=
  match h.current with
  | none => false
  | some st => st != .halt

/-- The interrupt handler's move (45_host_protocol.md R226): where the Host runs, has a handler and the interrupt is
up, it writes IRQE = 0 and sets the notification flag; else nothing happens. One atomic move: DESIGN CHOICE, log 15. -/
def handlerMove (s : State) : State :=
  if s.host.running && s.host.handler && s.irq then
    (s.setEnables false false).setHost (s.host.setNotified true)
  else s

end Sys2Proof.Machine
end

