-- ==== Sys2Proof/Machine/Step.lean ====
section
/-! DEFINITION. One move of one agent, and the placing of an instruction. -/

namespace Sys2Proof.Machine

/-- One step: none after a fault (60_exceptions.md R263); else the move whose turn it is (00_scope.md R7). -/
def step (s : State) : Host.Outcome State Fault Refusal :=
  match s.fault with
  | some f => .fault f
  | none =>
    match s.nextMove with
    | .host => .next (hostMove s.popMove)
    | .handler => .next (handlerMove s.popMove)
    | .engine => engineMove s.popMove

/-- The instruction of a table row placed where the next step fetches it: the block fetches nothing (10_state.md
R21), it runs the word of INST at the accepted Go, so the word is written to INST and Go is accepted, and the next move is the
Engine's, which completes it. Log 11. -/
def State.withFetchWord (s : State) (nbits w : Nat) : State :=
  { issueWord s.clearFault (tableWord nbits w) with schedule := .engine :: s.schedule }

end Sys2Proof.Machine
end

