-- ==== Sys2Proof/Machine/Temperature.lean ====
section
/-! DEFINITION. The temperature decoder (43_temperature_decoder.md): a stateless unit with ports of its own
(00_scope.md R6), bit-exact as R191 to R195 state it, negative readings included (90_conflicts.md C1, C2). -/

namespace Sys2Proof.Machine

/-- The output ports of R190. -/
structure Decoded where
  /-- int_part, an s16 -/
  intPart : Half
  /-- frac, a u16 in ten-thousandths -/
  frac : Half
  /-- res_warn -/
  resWarn : Bool
  deriving DecidableEq, Repr

/-- `raw = {tempMsb, tempLsb}` (R191). -/
def rawTemp (tempLsb tempMsb : Byte) : Half :=
  tempMsb ++ tempLsb

/-- `neg = tempMsb[7]` (R192). -/
def negTemp (tempMsb : Byte) : Bool :=
  tempMsb.getLsbD 7

/-- `mag = (raw ^ 0xFFFF) + 1` (R193). -/
def magTemp (raw : Half) : Half :=
  (raw ^^^ 0xFFFF#16) + 1#16

/-- The integer part (R193). -/
def intPartOf (neg : Bool) (raw : Half) : Half :=
  if neg then -(magTemp raw >>> 4) else raw >>> 4

/-- `res not in {9, 10, 11, 12}` (R194). -/
def resOutOfRange (res : Byte) : Bool :=
  !(res == 9#8 || res == 10#8 || res == 11#8 || res == 12#8)

/-- The effective resolution (R194). -/
def resEff (res : Byte) : Byte :=
  if resOutOfRange res then 9#8 else res

/-- The fraction, from the low bits of the original raw value (R195). -/
def fracOf (raw : Half) (eff : Byte) : Half :=
  (if raw.getLsbD 3 then 5000#16 else 0#16) +
  (if raw.getLsbD 2 && decide (10#8 ≤ eff) then 2500#16 else 0#16) +
  (if raw.getLsbD 1 && decide (11#8 ≤ eff) then 1250#16 else 0#16) +
  (if raw.getLsbD 0 && eff == 12#8 then 625#16 else 0#16)

/-- The decoder (R196): the three outputs at once. -/
def decodeTemperature (tempLsb tempMsb res : Byte) : Decoded where
  intPart := intPartOf (negTemp tempMsb) (rawTemp tempLsb tempMsb)
  frac := fracOf (rawTemp tempLsb tempMsb) (resEff res)
  resWarn := resOutOfRange res

end Sys2Proof.Machine
end

