-- ==== Sys2Proof/Machine/HostProtocol.lean ====
section
/-! DEFINITION. The host programs and host functions of 30_encoding.md R90, 45_host_protocol.md R224 to R237 and
70_reset_and_hazards.md R294: the three ways to wait, the handshake of one operation, boot, abort, Configure, ReadCycle, the
continuous loop, and what is done with a reading. None of it is hardware (00_scope.md R5); it is what a host that follows the spec
runs. -/

namespace Sys2Proof.Machine

/-! ### Waiting for a bit of Status (R224, R225, R227) -/

/-- `POLL STAT, bit, 1`: wait by polling for a bit of Status (45 R224). -/
def waitFor (P : Params) (bit : Nat) : HostStmt :=
  .poll P.offStat bit true

/-- The blocking wait of R225 for Status bit s with enable bit e, in variable t, at statement `start`; it
goes on at `start + 7`. -/
def blockingWait (P : Params) (s e : Nat) (t : Fin 16) (start : Nat) : List HostStmt :=
  [.rd t P.offStat, .andi t t (bitMask s), .bnei t 0#32 (start + 7), .wr P.offIrqe (bitMask e),
    .suspend, .clearNotified, .j start]

/-- The bounded wait of R227 for Status bit s, in variables t and c, at statement `start`: at most `deadline`
reads of Status; it goes on at `start + 7`, or at `timeout` when the deadline has passed. DESIGN CHOICE: the
deadline, which is host time, is counted in reads. Log 20. -/
def boundedWait (P : Params) (s : Nat) (deadline : Word) (t c : Fin 16) (timeout start : Nat) : List HostStmt :=
  [.li c deadline, .beqi c 0#32 timeout, .rd t P.offStat, .andi t t (bitMask s), .bnei t 0#32 (start + 7),
    .addi c c 0xFFFFFFFF#32, .j (start + 1)]

/-- How a host waits in a handshake. The variables are its own, apart from those of the results. -/
inductive Wait where
  /-- Busy polling (R224). -/
  | polling
  /-- Blocking until notified, with the handler of R226 installed (R225). -/
  | blocking (t : Fin 16)
  /-- A bounded deadline that yields Timeout (R227). -/
  | bounded (deadline : Word) (t c : Fin 16)
  deriving DecidableEq, Repr

/-- Host code that is placed at a statement index. -/
abbrev Segment := Nat → List HostStmt

/-- Code that names no statement. -/
def Segment.fixed (code : List HostStmt) : Segment :=
  fun _ => code

/-- Segments one after another, the first at `start`. -/
def assemble : Nat → List Segment → List HostStmt
  | _, [] => []
  | start, g :: gs => g start ++ assemble (start + (g start).length) gs

/-- A wait for Status bit s with enable bit e. -/
def Wait.segment (P : Params) (s e timeout : Nat) : Wait → Segment
  | .polling => Segment.fixed [waitFor P s]
  | .blocking t => blockingWait P s e t
  | .bounded deadline t c => boundedWait P s deadline t c timeout

/-! ### One operation (R90, R222) -/

/-- ReadResult of R90: none for a write. -/
def readResult (P : Params) (x : Fin 16) : Instr → List HostStmt
  | .owReset => [.rd x P.offStat, .andi x x (bitMask P.statPresence)]
  | .owRdbit => [.rd x P.offData, .andi x x 0x1#32]
  | .owRdbyte => [.rd x P.offData, .andi x x 0xFF#32]
  | .owWrbit _ => []
  | .owWrbyte _ => []

/-- `PRIM op, xN` (R90), polling: AwaitReady, IssueGo (instruction first), AwaitDone, ReadResult, ClearGo. -/
def prim (P : Params) (op : Instr) (x : Fin 16) : List HostStmt :=
  [waitFor P P.statReady, .wr P.offInst (encode P op), .wr P.offCtrl (bitMask P.ctrlGo),
    waitFor P P.statDone] ++
  readResult P x op ++ [.wr P.offCtrl P.ctrlIdle]

/-- The five steps with any way to wait. -/
def primSegments (P : Params) (w : Wait) (timeout : Nat) (op : Instr) (x : Fin 16) : List Segment :=
  [w.segment P P.statReady P.irqeReady timeout,
    Segment.fixed [.wr P.offInst (encode P op), .wr P.offCtrl (bitMask P.ctrlGo)],
    w.segment P P.statDone P.irqeDone timeout,
    Segment.fixed (readResult P x op ++ [.wr P.offCtrl P.ctrlIdle])]

/-! ### Boot and abort -/

/-- The boot order of R294 for a polling host, as program P1 of 95_test_vectors.md writes it: identity check
(R237), interrupt enables off, wait for Ready. It ends at 4 when bound, at 5 on a fatal binding error. -/
def bootProgram (P : Params) : List HostStmt :=
  [.rd 1 P.offId, .bnei 1 P.idMagic 5, .wr P.offIrqe 0#32, waitFor P P.statReady, .halt, .halt]

/-- The abort of a host that gives up waiting (R227, 40_handshake.md R127); also the optional soft reset at
binding (70 R296). -/
def softResetSequence (P : Params) : List HostStmt :=
  [.wr P.offCtrl (bitMask P.ctrlReset), .wr P.offCtrl P.ctrlIdle]

/-! ### Errors of the software (R236) -/

/-- The software error kinds, none of which the block raises. -/
inductive SoftError where
  /-- No device answered a bus reset (R231). -/
  | noDevicePresent
  /-- Inverted thresholds (R229). -/
  | invalidConfiguration
  /-- The reading's CRC does not match (R234). -/
  | crcMismatch
  /-- The session gate is held (R235). -/
  | busy
  /-- Unknown code at the software control surface (30_encoding.md R88, out of scope). -/
  | invalidRequest
  /-- A bounded wait ran out, and the host has aborted (R227). -/
  | timeout
  deriving DecidableEq, Repr

/-! ### Programs with their ends -/

/-- Where a command sequence goes when it does not succeed. -/
structure Aborts where
  /-- No device answered a bus reset (R231). -/
  noDevice : Nat
  /-- A bounded wait ran out (R227): the abort sequence stands there. -/
  timeout : Nat
  deriving DecidableEq, Repr

/-- A host program and the statements at which it ends. -/
structure HostProgram where
  /-- The statements. -/
  code : List HostStmt
  /-- Where it stands when the sequence has succeeded. -/
  done : Nat
  /-- Where it ends when no device is present. -/
  noDevice : Nat
  /-- Where it ends after a timeout, the peripheral back at idle. -/
  timeout : Nat
  deriving DecidableEq, Repr

/-- A command sequence with its ends: `last` where it has succeeded, HALT on NoDevicePresent, and on Timeout the
soft reset and its release, then HALT (R227: "the in-flight sequence must be aborted and the peripheral returned to
idle"). -/
def withEnds (P : Params) (last : HostStmt) (body : Aborts → List Segment) : HostProgram :=
  let n := (assemble 0 (body ⟨0, 0⟩)).length
  { code := assemble 0 (body ⟨n + 1, n + 2⟩) ++ [last, .halt] ++ softResetSequence P ++ [.halt]
    done := n
    noDevice := n + 1
    timeout := n + 4 }

/-- How a host that runs the program has ended: with the sequence done, or with the error of R231 or R227. -/
def HostProgram.outcome (p : HostProgram) (h : HostState) : Option (Except SoftError Unit) :=
  if h.hpc = p.done then some (.ok ())
  else if h.hpc = p.noDevice then some (.error .noDevicePresent)
  else if h.hpc = p.timeout then some (.error .timeout)
  else none

/-- One operation as a whole program. -/
def operationProgram (P : Params) (w : Wait) (op : Instr) (x : Fin 16) : HostProgram :=
  withEnds P .halt fun a => primSegments P w a.timeout op x

/-! ### Configuration (R229, R230) -/

/-- `ThermistorConfig`: signed thresholds and the resolution. -/
structure ThermistorConfig where
  /-- highThreshold, an int8 -/
  highThreshold : Byte
  /-- lowThreshold, an int8 -/
  lowThreshold : Byte
  /-- resolutionBits -/
  resolutionBits : Byte
  deriving DecidableEq, Repr

/-- The config byte of a resolution; an invalid one takes the 9-bit encoding (R229, 90_conflicts.md C3). -/
def configByte (res : Byte) : Byte :=
  if res = 10#8 then 0x3F#8 else if res = 11#8 then 0x5F#8 else if res = 12#8 then 0x7F#8 else 0x1F#8

/-- A Reset, and the jump if no device answered (R231): ClearGo comes before the jump. R231 gives the case of
Presence = 1 with P_PRESENCE_SET_MEANS_ABSENT = true. DESIGN CHOICE: with the other polarity, which the spec's
sequences do not speak of, the jump is taken on Presence = 0, the value that means no device there. Log 18. -/
def resetOrFail (P : Params) (w : Wait) (a : Aborts) : List Segment :=
  primSegments P w a.timeout .owReset 1 ++
  [Segment.fixed [if P.presenceSetMeansAbsent then .bnei 1 0#32 a.noDevice else .beqi 1 0#32 a.noDevice]]

/-- "repeat ReadBit until the bit read is 1". -/
def readBitUntilOne (P : Params) (w : Wait) (a : Aborts) : Segment :=
  fun start => assemble start (primSegments P w a.timeout .owRdbit 1) ++ [.beqi 1 0#32 start]

/-- WriteByte of each byte, in order. -/
def writeBytes (P : Params) (w : Wait) (a : Aborts) (bytes : List Byte) : List Segment :=
  bytes.flatMap fun v => primSegments P w a.timeout (.owWrbyte v) 1

/-- Configure (R230). Polling, it ends at 59 when the device has stored the configuration, at 60 with
NoDevicePresent. -/
def configureProgram (P : Params) (w : Wait) (cfg : ThermistorConfig) : HostProgram :=
  withEnds P .halt fun a =>
    resetOrFail P w a ++
    writeBytes P w a [0xCC#8, 0x4E#8, cfg.highThreshold, cfg.lowThreshold, configByte cfg.resolutionBits] ++
    resetOrFail P w a ++ writeBytes P w a [0xCC#8, 0x48#8] ++ [readBitUntilOne P w a]

/-- Validation and Configure (R229, R230): inverted thresholds are rejected before any bus activity; an
invalid resolution is a warning. -/
def configure (P : Params) (w : Wait) (cfg : ThermistorConfig) : Except SoftError (HostProgram × Bool) :=
  if cfg.highThreshold.toInt ≤ cfg.lowThreshold.toInt then .error .invalidConfiguration
  else .ok (configureProgram P w cfg, resOutOfRange cfg.resolutionBits)

/-! ### Reading (R232 to R234) -/

/-- The operations of ReadCycle (R232): the nine bytes land in x3 to x11. -/
def readCycleSegments (P : Params) (w : Wait) (a : Aborts) : List Segment :=
  resetOrFail P w a ++ writeBytes P w a [0xCC#8, 0x44#8] ++ [readBitUntilOne P w a] ++
  resetOrFail P w a ++ writeBytes P w a [0xCC#8, 0xBE#8] ++
  ([3, 4, 5, 6, 7, 8, 9, 10, 11] : List (Fin 16)).flatMap fun x => primSegments P w a.timeout .owRdbyte x

/-- One ReadCycle. Polling, it ends at 107, or at 108 with NoDevicePresent. -/
def readCycleProgram (P : Params) (w : Wait) : HostProgram :=
  withEnds P .halt (readCycleSegments P w)

/-- The continuous loop (R234): ReadCycle over and over, whatever became of the reading; at `done` the reading is
complete and the next cycle begins. DEDUCED: NoDevicePresent ("do not retry automatically", R231) and Timeout end
it. Log 19. -/
def readLoopProgram (P : Params) (w : Wait) : HostProgram :=
  withEnds P (.j 0) (readCycleSegments P w)

/-- The byte in variable xN. -/
def HostState.byteVar (x : Fin 16) (h : HostState) : Except Fault Byte :=
  match h.readVar x with
  | .ok v => .ok (v.setWidth 8)
  | .error f => .error f

/-- The scratchpad reading of R233 from x3 to x11. -/
def HostState.reading (h : HostState) : Except Fault Reading := do
  let b0 ← h.byteVar 3
  let b1 ← h.byteVar 4
  let b2 ← h.byteVar 5
  let b3 ← h.byteVar 6
  let b4 ← h.byteVar 7
  let b5 ← h.byteVar 8
  let b6 ← h.byteVar 9
  let b7 ← h.byteVar 10
  let b8 ← h.byteVar 11
  return ⟨b0, b1, b2, b3, b4, b5, b6, b7, b8⟩

/-- Four decimal digits, zero-padded (43_temperature_decoder.md R196). -/
def fourDigits (n : Nat) : String :=
  toString (n / 1000 % 10) ++ toString (n / 100 % 10) ++ toString (n / 10 % 10) ++ toString (n % 10)

/-- "integer part, decimal point, fractional part zero-padded to 4 digits" (R196). -/
def Decoded.display (d : Decoded) : String :=
  toString d.intPart.toInt ++ "." ++ fourDigits d.frac.toNat

/-- One cycle of the continuous loop (R234, 42_crc8.md R176): a reading that fails its CRC is not decoded. -/
def reportCycle (r : Reading) (res : Byte) : Except SoftError String :=
  if r.crcOk then .ok ("Temperature is: " ++ (decodeTemperature r.tempLsb r.tempMsb res).display)
  else .error .crcMismatch

/-- The line of one cycle (R234): the report, or the line of a rejected cycle. DESIGN CHOICE: the spec gives that
line no words. Log 19. -/
def reportLine (r : Reading) (res : Byte) : String :=
  match reportCycle r res with
  | .ok line => line
  | .error _ => "CRC mismatch"

/-- The line a step of the loop prints: one where the Host leaves `done` for the next cycle, with the configured
resolution. -/
def HostProgram.lineAt (p : HostProgram) (res : Byte) (s : State) : Option String :=
  if s.fault = none ∧ s.nextMove = .host ∧ s.host.hpc = p.done then
    match s.host.reading with
    | .ok r => some (reportLine r res)
    | .error _ => none
  else none

/-- The lines the loop prints in the next n steps of the machine, in order. -/
def HostProgram.lines (p : HostProgram) (res : Byte) : Nat → State → List String
  | 0, _ => []
  | n + 1, s =>
    (p.lineAt res s).toList ++
      match step s with
      | .next t => HostProgram.lines p res n t
      | .fault _ => []
      | .refused _ => []

/-! ### The session gate (R235) -/

/-- The admission gate: the handle that holds it, and the next handle to give. -/
structure SessionGate where
  /-- The current holder's handle. -/
  holder : Option Nat
  /-- The next handle. -/
  fresh : Nat
  deriving DecidableEq, Repr

/-- `acquire() -> Result<SessionHandle, Busy>`. -/
def acquireGate (g : SessionGate) : Except SoftError (Nat × SessionGate) :=
  match g.holder with
  | some _ => .error .busy
  | none => .ok (g.fresh, ⟨some g.fresh, g.fresh + 1⟩)

/-- `release(handle)`: the current holder frees the gate; any other handle changes nothing. Log 13. -/
def releaseGate (h : Nat) (g : SessionGate) : SessionGate :=
  if g.holder = some h then ⟨none, g.fresh⟩ else g

end Sys2Proof.Machine
end

