-- ==== Sys2Proof/Safety.lean ====
section
/-! DEFINITION. What counts as a safe run, in the spec's terms: states without a fault, runs and what they reach,
the launch premise, the end of a host program, weak fairness of the Engine, and the invariants the statements use. -/

namespace Sys2Proof

open Machine

/-- No fault on record (60_exceptions.md R262, R263). -/
abbrev Safe (s : State) : Prop :=
  s.fault = none

/-- One move from s to t. -/
abbrev Steps (s t : State) : Prop :=
  step s = .next t

/-- t comes after s in zero or more moves. -/
inductive Reaches (s : State) : State → Prop where
  | refl : Reaches s s
  | tail {t u : State} : Reaches s t → Steps t u → Reaches s u

/-- An infinite run: every state is one move after the one before. -/
def IsRun (r : Nat → State) : Prop :=
  ∀ n, Steps (r n) (r (n + 1))

/-- Weak fairness of the Engine (40_handshake.md R123): where P_ENGINE_FAIR holds, an Engine step that stays
enabled is eventually taken. Where it does not hold, nothing is asked. -/
def EngineFair (r : Nat → State) : Prop :=
  (r 0).params.engineFair = true →
    ∀ n, (∀ m, n ≤ m → (r m).phase.engineEnabled = true) → ∃ m, n ≤ m ∧ (r m).nextMove = .engine

/-- The launch premise of 70_reset_and_hazards.md R293: no fault, phase RECOVER or IDLE, a stated bus log, and
known interrupt enables. -/
abbrev CleanEntry (s : State) (log : List BusEvent) (readyEn doneEn : Bool) : Prop :=
  s.fault = none ∧ (s.phase = .recover ∨ s.phase = .idle) ∧ s.busLog = log ∧
    s.irqeReadyEn = readyEn ∧ s.irqeDoneEn = doneEn

/-- A host run has ended: HALT is reached with no fault on record (45_host_protocol.md R221). -/
abbrev HostEnded (s : State) : Prop :=
  s.fault = none ∧ s.host.current = some .halt

/-- The operation in the pipeline, if there is one (10_state.md R31). -/
def Machine.Phase.op : Phase → Option Instr
  | .idle => none
  | .busy op => some op
  | .done op => some op
  | .recover => none
  | .resetHeld => none

/-- The operation in the pipeline is the one INST still encodes (10_state.md R31, 20_memory.md R75). -/
abbrev OpMatchesInst (s : State) : Prop :=
  ∀ op, s.phase.op = some op → dec s.params s.instReg = some op

/-- The events an operation in DONE has just left at the end of the bus log, given the result latches: what
the host reads as the result is what was on the line (R28, R29, R141 to R145). -/
def resultEvents (s : State) : Instr → List BusEvent
  | .owReset => [.resetPulse (s.presenceFlag != s.params.presenceSetMeansAbsent)]
  | .owRdbit => [.readSlot (s.rxData.getLsbD 0)]
  | .owRdbyte => (byteBits s.rxData).map .readSlot
  | .owWrbit b => [.writeSlot b]
  | .owWrbyte d => (byteBits d).map .writeSlot

/-- In DONE(op) the bus log ends with the events the result latches describe. -/
abbrev ResultOnTheLine (s : State) : Prop :=
  ∀ op, s.phase = .done op → resultEvents s op <:+ s.busLog

end Sys2Proof
end

