-- ==== Sys2Proof/Certificates/Slice0/Obligations.lean ====
section
/-! DEFINITION. The statements for the provers, from the spec's numbered rules. A statement about a register write says
it for every state whose parameters meet 00_scope.md R9, so for every choice of offsets, codes and bit positions. -/

open Sys2Proof Sys2Proof.Machine

/-! ### The instruction word (30_encoding.md) -/

/-- R82: the code, with the operand zero-extended and OR-ed into its low bits. -/
def Obligations.EncodeOrsTheOperandIntoTheCode : Prop :=
  (∀ P : Params,
    encode P .owReset = P.opReset ∧
    encode P .owRdbit = P.opReadBit ∧
    encode P .owRdbyte = P.opReadByte ∧
    (∀ b : Bool, encode P (.owWrbit b) = P.opWriteBit ||| (BitVec.ofBool b).setWidth 32) ∧
    (∀ v : Byte, encode P (.owWrbyte v) = P.opWriteByte ||| v.setWidth 32)) ∧
  encode Params.default (.owWrbyte 0xCC#8) = 0x00000FCC#32

/-- Words written out from the spec's format table (30_encoding.md section 1, 95_test_vectors.md L2-E) decode to the
operations they stand for, and their neighbours decode to nothing. -/
def Obligations.DecodedWordsOfEveryFamily : Prop :=
  dec Params.default 0b00000000000000000000100000000000#32 = some .owReset ∧
  dec Params.default 0b00000000000000000000110000000000#32 = some .owRdbit ∧
  dec Params.default 0b00000000000000000000110100000000#32 = some .owRdbyte ∧
  dec Params.default 0b00000000000000000000111000000001#32 = some (.owWrbit true) ∧
  dec Params.default 0b00000000000000000000111110100101#32 = some (.owWrbyte 0xA5#8) ∧
  dec Params.default 0b00000000000000000000100000000001#32 = none ∧
  dec Params.default 0b00000000000000000000111000000010#32 = none ∧
  dec Params.default 0b00000000000000000001111100000000#32 = none

/-- 30_encoding.md section 2, the sentence the spec marks as derived: decoding an encoded operation gives it back, and a word that
decodes is the encoding of what it decodes to, for every choice of codes. -/
def Obligations.DecodeAndEncodeAgree : Prop :=
  ∀ P : Params, P.wellFormed = true →
    (∀ i : Instr, dec P (encode P i) = some i) ∧
    (∀ (w : Word) (i : Instr), dec P w = some i → encode P i = w)

/-- 30_encoding.md section 2, marked as derived there: a word matches at most one row of the opcode table, and decodes exactly when
it matches one. -/
def Obligations.OpcodeRowsAreDisjointAndComplete : Prop :=
  ∀ P : Params, P.wellFormed = true →
    (opcodeRows P).Pairwise (fun r r' => ∀ w : Word, ¬ (rowMatches w r = true ∧ rowMatches w r' = true)) ∧
    (∀ w : Word, (dec P w).isSome = (opcodeRows P).any (rowMatches w))

/-- R85: which words are reserved under the default codes, how many are legal, that storing one is harmless,
and that Go on one faults. -/
def Obligations.ReservedWordsAreThese : Prop :=
  (∀ w : Word, dec Params.default w = none ↔
    (w.extractLsb' 12 20 ≠ 0#20 ∨
     w.extractLsb' 8 4 ∉ [0x8#4, 0xC#4, 0xD#4, 0xE#4, 0xF#4] ∨
     (w.extractLsb' 8 4 ∈ [0x8#4, 0xC#4, 0xD#4] ∧ w.extractLsb' 0 8 ≠ 0#8) ∨
     (w.extractLsb' 8 4 = 0xE#4 ∧ w.extractLsb' 1 7 ≠ 0#7))) ∧
  (∀ w : Word, dec Params.default w ≠ none → w.toNat < 4096) ∧
  ((List.range 4096).filter fun n => (dec Params.default (BitVec.ofNat 32 n)).isSome).length = 261 ∧
  (∀ (s : State) (w : Word), s.params = Params.default → s.phase = .idle → dec Params.default w = none →
    portWrite s.params.offInst 4 w s = .ok (s.setInst w) ∧
    portWrite s.params.offCtrl 4 (bitMask s.params.ctrlGo) (s.setInst w) = .error .reservedInstruction)

/-! ### Reset (10_state.md R50, 70_reset_and_hazards.md) -/

/-- R290: what hardware reset leaves; what the rule calls unspecified is a free value, each its own. -/
def Obligations.HardwareResetState : Prop :=
  State.reset.phase = .recover ∧ State.reset.fault = none ∧ State.reset.busLog = [] ∧
  State.reset.instReg = Config.draw 0 ∧
  State.reset.irqeReadyEn = (Config.draw 1).getLsbD 0 ∧
  State.reset.irqeDoneEn = (Config.draw 2).getLsbD 0 ∧
  State.reset.presenceFlag = (Config.draw 3).getLsbD 0 ∧
  State.reset.rxData = (Config.draw 4).setWidth 8

/-- 10_state.md section 7 and 70_reset_and_hazards.md section 1, the clauses marked as derived there: after reset neither flag is
up and the interrupt output is down, whatever the enables; ID reads its constant. -/
def Obligations.ResetRaisesNothing : Prop :=
  (∀ d : Word, (statWord State.reset d).getLsbD State.reset.params.statReady = false ∧
    (statWord State.reset d).getLsbD State.reset.params.statDone = false) ∧
  State.reset.irq = false ∧
  portRead State.reset.params.offId 4 State.reset = .ok (0x10EE4453#32, State.reset)

/-! ### A step (00_scope.md R7, 40_handshake.md R120 to R124, 60_exceptions.md R263) -/

/-- A step runs the decoded instruction: the Engine's move in BUSY(i) is exec of i, with the interleaving one
move further and nothing else around it; a word placed by withFetchWord is decoded and run by the very next step, and placing it
changes INST, the phase, the fault record and the schedule only. -/
def Obligations.StepRunsTheDecodedInstruction : Prop :=
  (∀ (s : State) (i : Instr), s.fault = none → s.phase = .busy i → s.nextMove = .engine →
    step s = exec i s.popMove) ∧
  (∀ (s : State) (w : Word) (i : Instr), dec s.params w = some i → i.wellFormed = true →
    step (s.withFetchWord 32 w.toNat) = exec i (s.withFetchWord 32 w.toNat).popMove ∧
    s.withFetchWord 32 w.toNat =
      { s with instReg := w, phase := .busy i, fault := none, schedule := .engine :: s.schedule })

/-- R263: once a fault is on record no agent moves, nothing clears it, and the state is no successful end. -/
def Obligations.FaultIsStickyAndFinal : Prop :=
  ∀ (s : State) (f : Fault), s.fault = some f →
    step s = .fault f ∧ (∀ n : Nat, Sys2Proof.core.run (n + 1) s = .fault f) ∧
    (∀ t : State, Reaches s t → t = s) ∧ ¬ HostEnded s

/-- 60_exceptions.md section 2: a host statement that faults leaves the fault on record and changes nothing else, so the step after
it answers that fault. -/
def Obligations.RaisingRecordsTheFaultOnly : Prop :=
  ∀ (s : State) (st : HostStmt) (f : Fault), s.fault = none → s.nextMove = .host →
    s.host.current = some st → hostStmt st s.popMove = .error f →
    step s = .next { s.popMove with fault := some f } ∧ step { s.popMove with fault := some f } = .fault f

/-- R120: the completion step is enabled exactly in BUSY; it performs the operation and enters DONE of it; Done
reads 1 and Ready 0 from then on, and the result is visible. -/
def Obligations.CompletionStepEntersDone : Prop :=
  (∀ (s : State) (i : Instr), s.fault = none → s.nextMove = .engine → s.phase = .busy i →
    s.params.wellFormed = true →
    ∃ t : State, step s = .next t ∧ exec i s.popMove = .next t ∧ t.phase = .done i ∧
      (∀ d : Word, (statWord t d).getLsbD t.params.statDone = true ∧
        (statWord t d).getLsbD t.params.statReady = false ∧
        (i = .owReset → (statWord t d).getLsbD t.params.statPresence = t.presenceFlag) ∧
        (i = .owRdbit → (dataWord t d).getLsbD 0 = t.rxData.getLsbD 0) ∧
        (i = .owRdbyte → (dataWord t d).extractLsb' 0 8 = t.rxData))) ∧
  (∀ (s t : State) (i : Instr), step s = .next t → t.phase = .done i → s.phase ≠ .done i →
    s.phase = .busy i ∧ s.nextMove = .engine)

/-- R122: in IDLE, DONE and RESET_HELD the Engine has no step, and a step that leaves one of those phases runs a host
statement that writes CTRL, and is that write. -/
def Obligations.NoEngineStepAtRest : Prop :=
  ∀ s : State, (s.phase = .idle ∨ (∃ op, s.phase = .done op) ∨ s.phase = .resetHeld) →
    engineMove s = .next s ∧
    (∀ t : State, step s = .next t → t.phase ≠ s.phase →
      s.nextMove = .host ∧ ∃ (v : Word) (u : State),
        (s.host.current = some (.wr s.params.offCtrl v) ∨
          s.host.current = some (.memWrite (s.params.base + s.params.offCtrl) 4 v)) ∧
        writeCtrl v s.popMove = .ok u ∧ t = u.hostAdvance)

/-- R124: the Ready step, enabled exactly in RECOVER, enters IDLE, where Ready reads 1; after hardware reset
the block starts in RECOVER with Ready 0. -/
def Obligations.ReadyStepEntersIdle : Prop :=
  (∀ s : State, s.fault = none → s.nextMove = .engine → s.phase = .recover → s.params.wellFormed = true →
    step s = .next (s.popMove.setPhase .idle) ∧
    (∀ d : Word, (statWord (s.popMove.setPhase .idle) d).getLsbD s.params.statReady = true)) ∧
  (∀ s t : State, step s = .next t → s.nextMove = .engine → s.phase ≠ .idle → t.phase = .idle →
    s.phase = .recover) ∧
  State.reset.phase = .recover ∧
  (∀ d : Word, (statWord State.reset d).getLsbD State.reset.params.statReady = false)

/-- 40_handshake.md section 3 (fairness), read on runs: where the Engine is fair, an operation in BUSY ends in DONE of it and a
block in RECOVER reaches IDLE, unless the Host puts the block in soft reset first. -/
def Obligations.FairEngineMakesProgress : Prop :=
  ∀ r : Nat → State, IsRun r → EngineFair r → (r 0).params.engineFair = true →
    (∀ (n : Nat) (op : Instr), (r n).phase = .busy op →
      ∃ m, n ≤ m ∧ ((r m).phase = .done op ∨ (r m).phase = .resetHeld)) ∧
    (∀ n : Nat, (r n).phase = .recover →
      ∃ m, n ≤ m ∧ ((r m).phase = .idle ∨ (r m).phase = .resetHeld))

/-! ### Invariants every step keeps -/

/-- 10_state.md R31 and 20_memory.md R75, from every state: the operation in the pipeline stays the one INST
encodes. -/
def Obligations.StepKeepsOpMatchesInst : Prop :=
  ∀ s t : State, OpMatchesInst s → step s = .next t → OpMatchesInst t

/-- 10_state.md R28, R29 with 41_bus_primitives.md, from every state: in DONE the result latches describe the events at the end of
the bus log. -/
def Obligations.StepKeepsResultOnTheLine : Prop :=
  ∀ s t : State, ResultOnTheLine s → step s = .next t → ResultOnTheLine t

/-- Both invariants hold at reset. -/
def Obligations.InvariantsHoldAtReset : Prop :=
  OpMatchesInst State.reset ∧ ResultOnTheLine State.reset

/-- The parameters are fixed for the machine, and the bus log only grows (10_state.md section 5: it records every
transaction, in order). -/
def Obligations.StepKeepsParamsAndLogPrefix : Prop :=
  ∀ s t : State, step s = .next t → t.params = s.params ∧ s.busLog <+: t.busLog

/-- 10_state.md section 1: one operation occupies the pipeline at a time, and the pipeline returns to rest before the next one
starts: the operation in it changes only by leaving it. -/
def Obligations.OneOperationAtATime : Prop :=
  ∀ (s t : State) (op op' : Instr), step s = .next t → s.phase.op = some op → t.phase.op = some op' →
    op' = op

/-- R75: an operation runs the word of INST at the accepted Go, and neither INST nor the running operation can
be changed under it. -/
def Obligations.RunningOperationCannotChange : Prop :=
  (∀ s t : State, writeGo s = .ok t → ∃ op, dec s.params s.instReg = some op ∧ t.phase = .busy op) ∧
  (∀ (s : State) (v : Word), s.params.wellFormed = true → s.phase ≠ .idle →
    portWrite s.params.offInst 4 v s = .error .instWhileNotIdle) ∧
  (∀ (s t : State) (op : Instr), step s = .next t → s.phase = .busy op →
    t.instReg = s.instReg ∧ (t.phase = .busy op ∨ t.phase = .done op ∨ t.phase = .resetHeld))

/-- 40_handshake.md section 4, marked as derived there: Ready and Done are never both up, and no step goes from one up to the other
up, so a state with both down lies between. -/
def Obligations.ReadyAndDoneAreApart : Prop :=
  (∀ (s : State) (d : Word), s.params.wellFormed = true →
    ¬ ((statWord s d).getLsbD s.params.statReady = true ∧ (statWord s d).getLsbD s.params.statDone = true)) ∧
  (∀ s t : State, step s = .next t →
    ¬ (s.phase.isDone = true ∧ t.phase.ready = true) ∧ ¬ (s.phase.ready = true ∧ t.phase.isDone = true))

/-- An Engine move touches no state of the Host and none the Host writes: INST and the enables
(00_scope.md section 3, 41_bus_primitives.md section 1). -/
def Obligations.EngineMoveLeavesTheHostSide : Prop :=
  ∀ s t : State, step s = .next t → s.nextMove = .engine →
    t.host = s.host ∧ t.instReg = s.instReg ∧ t.irqeReadyEn = s.irqeReadyEn ∧
    t.irqeDoneEn = s.irqeDoneEn ∧ t.params = s.params ∧ t.fault = none

/-! ### The five bus operations (41_bus_primitives.md) -/

/-- R141: OW.RESET completes in every state: the line's answer is logged and latched with the polarity,
nothing else changes, and Status shows it. -/
def Obligations.ResetOperationResult : Prop :=
  ∀ s : State,
    encode s.params .owReset = s.params.opReset ∧ dec s.params s.params.opReset = some .owReset ∧
    ∃ t : State, exec .owReset s = .next t ∧
      t = { s with
            busAnswers := s.busAnswers.tail
            busLog := s.busLog ++ [.resetPulse s.presenceAnswer]
            presenceFlag :=
              if s.params.presenceSetMeansAbsent then !s.presenceAnswer else s.presenceAnswer
            phase := .done .owReset } ∧
      (s.params.wellFormed = true → ∀ d : Word,
        (statWord t d).getLsbD s.params.statPresence = t.presenceFlag ∧
        (statWord t d).getLsbD s.params.statDone = true)

/-- R142: OW.RDBIT completes in every state: one read slot, bit 0 of the latch defined and the others drawn,
nothing else changes, and DATA shows the bit. -/
def Obligations.ReadBitOperationResult : Prop :=
  ∀ s : State,
    encode s.params .owRdbit = s.params.opReadBit ∧
    ∃ t : State, exec .owRdbit s = .next t ∧
      t = { s with
            busAnswers := s.busAnswers.tail
            busLog := s.busLog ++ [.readSlot s.readAnswer]
            rxData := (Config.draw s.draws).extractLsb' 0 7 ++ BitVec.ofBool s.readAnswer
            draws := s.draws + 1
            phase := .done .owRdbit } ∧
      (∀ d : Word, (dataWord t d).getLsbD 0 = s.readAnswer ∧
        ∀ i : Nat, 1 ≤ i → (dataWord t d).getLsbD i = d.getLsbD i) ∧
      (s.params.wellFormed = true → ∀ d : Word, (statWord t d).getLsbD s.params.statDone = true)

/-- R143: OW.WRBIT b completes in every state: one write slot, no result, nothing else changes; the words
between are reserved, and Go on one faults. -/
def Obligations.WriteBitOperationResult : Prop :=
  (∀ (s : State) (b : Bool),
    encode s.params (.owWrbit b) = s.params.opWriteBit ||| (BitVec.ofBool b).setWidth 32 ∧
    ∃ t : State, exec (.owWrbit b) s = .next t ∧
      t = { s with busLog := s.busLog ++ [.writeSlot b], phase := .done (.owWrbit b) } ∧
      (s.params.wellFormed = true → ∀ d : Word,
        (statWord t d).getLsbD s.params.statDone = true ∧
        (statWord t d).getLsbD s.params.statPresence = d.getLsbD s.params.statPresence ∧
        dataWord t d = d)) ∧
  (∀ w : Word, 0x00000E02#32 ≤ w → w ≤ 0x00000EFF#32 → dec Params.default w = none ∧
    ∀ s : State, s.params = Params.default → s.phase = .idle → s.instReg = w →
      writeGo s = .error .reservedInstruction)

/-- R144: OW.RDBYTE completes in every state: eight read slots in order, each answered by the line after the
slots before it, bit i of the latch the i-th answer; nothing else changes, and DATA shows the byte. -/
def Obligations.ReadByteOperationResult : Prop :=
  ∀ s : State,
    encode s.params .owRdbyte = s.params.opReadByte ∧
    ∃ (t : State) (bits : List Bool), exec .owRdbyte s = .next t ∧ bits.length = 8 ∧
      (∀ i : Nat, i < 8 → bits.getD i false =
        (s.busAnswers.drop i).headD (Config.busRead (s.busLog ++ (bits.take i).map .readSlot))) ∧
      (∀ i : Nat, i < 8 → t.rxData.getLsbD i = bits.getD i false) ∧
      t = { s with
            busAnswers := s.busAnswers.drop 8
            busLog := s.busLog ++ bits.map .readSlot
            rxData := t.rxData
            phase := .done .owRdbyte } ∧
      (∀ d : Word, (dataWord t d).extractLsb' 0 8 = t.rxData ∧
        ∀ i : Nat, 8 ≤ i → (dataWord t d).getLsbD i = d.getLsbD i) ∧
      (s.params.wellFormed = true → ∀ d : Word, (statWord t d).getLsbD s.params.statDone = true)

/-- R145: OW.WRBYTE d completes in every state: eight write slots, bit 0 first, no result, nothing else
changes. -/
def Obligations.WriteByteOperationResult : Prop :=
  ∀ (s : State) (v : Byte),
    encode s.params (.owWrbyte v) = s.params.opWriteByte ||| v.setWidth 32 ∧
    ∃ t : State, exec (.owWrbyte v) s = .next t ∧
      t = { s with
            busLog := s.busLog ++ [.writeSlot (v.getLsbD 0), .writeSlot (v.getLsbD 1),
              .writeSlot (v.getLsbD 2), .writeSlot (v.getLsbD 3), .writeSlot (v.getLsbD 4),
              .writeSlot (v.getLsbD 5), .writeSlot (v.getLsbD 6), .writeSlot (v.getLsbD 7)]
            phase := .done (.owWrbyte v) } ∧
      (s.params.wellFormed = true → ∀ d : Word, (statWord t d).getLsbD s.params.statDone = true)

/-- 41_bus_primitives.md section 1, the frame of all five: every operation completes without a fault, appends exactly the events its
row of the table names, and changes no IRQE enable, not INST, not ID, nor anything but its result. -/
def Obligations.BusOperationFrame : Prop :=
  ∀ (i : Instr) (s : State), ∃ t : State, exec i s = .next t ∧
    t.instReg = s.instReg ∧ t.irqeReadyEn = s.irqeReadyEn ∧ t.irqeDoneEn = s.irqeDoneEn ∧
    t.params = s.params ∧ t.fault = s.fault ∧ t.host = s.host ∧ t.schedule = s.schedule ∧
    t.turn = s.turn ∧ t.phase = .done i ∧
    (i ≠ .owReset → t.presenceFlag = s.presenceFlag) ∧
    (i ≠ .owRdbit → i ≠ .owRdbyte → t.rxData = s.rxData) ∧
    (i ≠ .owRdbit → t.draws = s.draws) ∧
    (match i with
     | .owReset => ∃ a : Bool, t.busLog = s.busLog ++ [.resetPulse a]
     | .owRdbit => ∃ b : Bool, t.busLog = s.busLog ++ [.readSlot b]
     | .owRdbyte => ∃ bs : List Bool, bs.length = 8 ∧ t.busLog = s.busLog ++ bs.map .readSlot
     | .owWrbit b => t.busLog = s.busLog ++ [.writeSlot b]
     | .owWrbyte _ => ∃ bs : List Bool, bs.length = 8 ∧ t.busLog = s.busLog ++ bs.map .writeSlot)

/-! ### Register reads (10_state.md R22 to R29, 20_memory.md R62, R65) -/

/-- R23, R26: ID reads its constant without a side effect, and a write of it faults; INST, CTRL and IRQE are
not read back: a read gives a drawn word. -/
def Obligations.IdAndWriteOnlyRegisterReads : Prop :=
  (∀ (s : State) (v : Word), s.params.wellFormed = true →
    portRead s.params.offId 4 s = .ok (s.params.idMagic, s) ∧
    portWrite s.params.offId 4 v s = .error .badAccess) ∧
  (∀ (s : State) (off : Nat), s.params.wellFormed = true →
    (off = s.params.offInst ∨ off = s.params.offCtrl ∨ off = s.params.offIrqe) →
    portRead off 4 s = .ok (Config.draw s.draws, { s with draws := s.draws + 1 }))

/-- R28: what a STAT read gives, bit by bit, over a drawn word; it changes nothing, and a write faults. -/
def Obligations.StatReadsReadyDonePresence : Prop :=
  ∀ (s : State) (v : Word), s.params.wellFormed = true →
    (∃ w : Word, portRead s.params.offStat 4 s = .ok (w, { s with draws := s.draws + 1 }) ∧
      (w.getLsbD s.params.statReady = true ↔ s.phase = .idle) ∧
      (w.getLsbD s.params.statDone = true ↔ ∃ op, s.phase = .done op) ∧
      w.getLsbD s.params.statPresence =
        (if s.phase = .done .owReset then s.presenceFlag
         else (Config.draw s.draws).getLsbD s.params.statPresence) ∧
      (∀ i : Nat, i ≠ s.params.statReady → i ≠ s.params.statDone → i ≠ s.params.statPresence →
        w.getLsbD i = (Config.draw s.draws).getLsbD i)) ∧
    portWrite s.params.offStat 4 v s = .error .badAccess

/-- R29: what a DATA read gives, over a drawn word; it changes nothing, and a write faults. -/
def Obligations.DataReadsTheResult : Prop :=
  ∀ (s : State) (v : Word), s.params.wellFormed = true →
    (∃ w : Word, portRead s.params.offData 4 s = .ok (w, { s with draws := s.draws + 1 }) ∧
      (s.phase = .done .owRdbit → w.getLsbD 0 = s.rxData.getLsbD 0 ∧
        ∀ i : Nat, 1 ≤ i → w.getLsbD i = (Config.draw s.draws).getLsbD i) ∧
      (s.phase = .done .owRdbyte → w.extractLsb' 0 8 = s.rxData ∧
        ∀ i : Nat, 8 ≤ i → w.getLsbD i = (Config.draw s.draws).getLsbD i) ∧
      (s.phase ≠ .done .owRdbit → s.phase ≠ .done .owRdbyte → w = Config.draw s.draws)) ∧
    portWrite s.params.offData 4 v s = .error .badAccess

/-- R62: an access of another width, at a misaligned offset, or outside the block faults BadAccess, by offset
and by address, above the block and below it, before anything else is looked at. -/
def Obligations.BadAccessesFault : Prop :=
  (∀ (s : State) (off bytes : Nat) (v : Word),
    (bytes ≠ 4 ∨ off % 4 ≠ 0 ∨ s.params.blockSize ≤ off) →
    portRead off bytes s = .error .badAccess ∧ portWrite off bytes v s = .error .badAccess ∧
    memRead (s.params.base + off) bytes s = .error .badAccess ∧
    memWrite (s.params.base + off) bytes v s = .error .badAccess) ∧
  (∀ (s : State) (addr bytes : Nat) (v : Word), addr < s.params.base →
    memRead addr bytes s = .error .badAccess ∧ memWrite addr bytes v s = .error .badAccess)

/-- R22, the whole register map: at an admitted offset, what a read gives and which rule a write takes, at the offset
and at its address P_BASE + offset; a reserved offset faults. -/
def Obligations.RegisterMapAccess : Prop :=
  ∀ (s : State) (off : Nat) (v : Word), s.params.wellFormed = true → off % 4 = 0 → off < s.params.blockSize →
    (portWrite off 4 v s =
      if off = s.params.offInst then writeInst v s
      else if off = s.params.offCtrl then writeCtrl v s
      else if off = s.params.offIrqe then writeIrqe v s
      else .error .badAccess) ∧
    (portRead off 4 s =
      if off = s.params.offInst ∨ off = s.params.offCtrl ∨ off = s.params.offIrqe then
        .ok (Config.draw s.draws, { s with draws := s.draws + 1 })
      else if off = s.params.offStat then
        .ok (statWord s (Config.draw s.draws), { s with draws := s.draws + 1 })
      else if off = s.params.offData then
        .ok (dataWord s (Config.draw s.draws), { s with draws := s.draws + 1 })
      else if off = s.params.offId then .ok (s.params.idMagic, s)
      else .error .badAccess) ∧
    memRead (s.params.base + off) 4 s = portRead off 4 s ∧
    memWrite (s.params.base + off) 4 v s = portWrite off 4 v s

/-- 20_memory.md section 3: no read has a side effect on the block; only the model's own count of drawn words
moves. -/
def Obligations.ReadsHaveNoSideEffect : Prop :=
  ∀ (s t : State) (off bytes : Nat) (w : Word), portRead off bytes s = .ok (w, t) →
    t = { s with draws := t.draws } ∧ s.draws ≤ t.draws

/-! ### Register writes (10_state.md R27, 40_handshake.md R102 to R109, 60_exceptions.md R264) -/

/-- R102, the whole table: for a CTRL word without reserved bits, for an INST write and for an Engine step, what
each phase becomes or which fault it raises; a CTRL word with a reserved bit faults first; an abort is logged; reads
never change the phase. -/
def Obligations.PhaseTransitionTable : Prop :=
  ∀ (s : State) (v : Word), s.params.wellFormed = true →
    (portWrite s.params.offInst 4 v s =
      match s.phase with
      | .idle => .ok (s.setInst v)
      | _ => .error .instWhileNotIdle) ∧
    (v &&& ~~~(bitMask s.params.ctrlGo ||| bitMask s.params.ctrlReset) ≠ 0#32 →
      portWrite s.params.offCtrl 4 v s = .error .reservedBits) ∧
    (v &&& ~~~(bitMask s.params.ctrlGo ||| bitMask s.params.ctrlReset) = 0#32 →
      (portWrite s.params.offCtrl 4 v s).map State.phase =
        match v.getLsbD s.params.ctrlGo, v.getLsbD s.params.ctrlReset, s.phase with
        | true, false, .idle =>
          (match dec s.params s.instReg with
           | some op => .ok (.busy op)
           | none => .error .reservedInstruction)
        | true, false, _ => .error .goWhileNotIdle
        | false, false, .idle => .ok .idle
        | false, false, .busy _ => .error .clearWhileBusy
        | false, false, .done _ => .ok .recover
        | false, false, .recover => .ok .recover
        | false, false, .resetHeld => .ok .recover
        | false, true, _ => .ok .resetHeld
        | true, true, _ => .error .goAndReset) ∧
    (∀ t : State, portWrite s.params.offCtrl 4 v s = .ok t → t.busLog = s.busLog ++
      (match v.getLsbD s.params.ctrlReset, s.phase with
       | true, .busy _ => [.aborted]
       | _, _ => [])) ∧
    (∀ t : State, engineMove s = .next t → t.phase =
      match s.phase with
      | .busy op => .done op
      | .recover => .idle
      | p => p) ∧
    (∀ (off bytes : Nat) (w : Word) (t : State), portRead off bytes s = .ok (w, t) → t.phase = s.phase)

/-- R103: an INST write stores any word in IDLE, also a reserved one, and faults in any other phase; a second
write in IDLE replaces the first. -/
def Obligations.InstWriteStoresOnlyInIdle : Prop :=
  ∀ (s : State) (v v' : Word), s.params.wellFormed = true →
    (s.phase = .idle → portWrite s.params.offInst 4 v s = .ok { s with instReg := v } ∧
      portWrite s.params.offInst 4 v' { s with instReg := v } = .ok { s with instReg := v' }) ∧
    (s.phase ≠ .idle → portWrite s.params.offInst 4 v s = .error .instWhileNotIdle)

/-- R105: Go in IDLE decodes INST and enters BUSY of the operation with Ready and Done down, or faults
ReservedInstruction. -/
def Obligations.GoAcceptedInIdle : Prop :=
  ∀ (s : State) (v : Word), s.params.wellFormed = true →
    v &&& ~~~(bitMask s.params.ctrlGo ||| bitMask s.params.ctrlReset) = 0#32 →
    v.getLsbD s.params.ctrlGo = true → v.getLsbD s.params.ctrlReset = false → s.phase = .idle →
    (∀ op : Instr, dec s.params s.instReg = some op →
      portWrite s.params.offCtrl 4 v s = .ok { s with phase := .busy op } ∧
      (∀ d : Word, (statWord { s with phase := .busy op } d).getLsbD s.params.statReady = false ∧
        (statWord { s with phase := .busy op } d).getLsbD s.params.statDone = false)) ∧
    (dec s.params s.instReg = none →
      portWrite s.params.offCtrl 4 v s = .error .reservedInstruction)

/-- R106, R109: Go in any phase but IDLE faults GoWhileNotIdle; GO and RESET together fault GoAndReset in
every phase. -/
def Obligations.GoRefusedOrJoinedWithReset : Prop :=
  ∀ (s : State) (v : Word), s.params.wellFormed = true →
    v &&& ~~~(bitMask s.params.ctrlGo ||| bitMask s.params.ctrlReset) = 0#32 →
    v.getLsbD s.params.ctrlGo = true →
    (v.getLsbD s.params.ctrlReset = false → s.phase ≠ .idle →
      portWrite s.params.offCtrl 4 v s = .error .goWhileNotIdle) ∧
    (v.getLsbD s.params.ctrlReset = true →
      portWrite s.params.offCtrl 4 v s = .error .goAndReset)

/-- R107: ClearGo by phase; the result latches keep their values but are no longer visible, and after DONE neither
flag is up. -/
def Obligations.ClearGoByPhase : Prop :=
  ∀ (s : State) (v : Word), s.params.wellFormed = true →
    v &&& ~~~(bitMask s.params.ctrlGo ||| bitMask s.params.ctrlReset) = 0#32 →
    v.getLsbD s.params.ctrlGo = false → v.getLsbD s.params.ctrlReset = false →
    (s.phase = .idle → portWrite s.params.offCtrl 4 v s = .ok s) ∧
    (∀ op, s.phase = .busy op → portWrite s.params.offCtrl 4 v s = .error .clearWhileBusy) ∧
    (∀ op, s.phase = .done op → portWrite s.params.offCtrl 4 v s = .ok { s with phase := .recover } ∧
      (∀ d : Word, (statWord { s with phase := .recover } d).getLsbD s.params.statReady = false ∧
        (statWord { s with phase := .recover } d).getLsbD s.params.statDone = false ∧
        (statWord { s with phase := .recover } d).getLsbD s.params.statPresence = d.getLsbD s.params.statPresence ∧
        dataWord { s with phase := .recover } d = d)) ∧
    (s.phase = .recover → portWrite s.params.offCtrl 4 v s = .ok s) ∧
    (s.phase = .resetHeld → portWrite s.params.offCtrl 4 v s = .ok { s with phase := .recover })

/-- 40_handshake.md section 2 (soft reset): outside RESET_HELD the block enters it, an operation in flight is logged as cut off, the
latches and enables are drawn, INST stays; in RESET_HELD nothing changes, which is the model's reading of the spec's two texts
(log 9). -/
def Obligations.SoftResetByPhase : Prop :=
  ∀ (s : State) (v : Word), s.params.wellFormed = true →
    v &&& ~~~(bitMask s.params.ctrlGo ||| bitMask s.params.ctrlReset) = 0#32 →
    v.getLsbD s.params.ctrlGo = false → v.getLsbD s.params.ctrlReset = true →
    (s.phase = .resetHeld → portWrite s.params.offCtrl 4 v s = .ok s) ∧
    (s.phase ≠ .resetHeld → portWrite s.params.offCtrl 4 v s = .ok { s with
      phase := .resetHeld
      busLog := s.busLog ++ (match s.phase with
        | .busy _ => [.aborted]
        | _ => [])
      presenceFlag := (Config.draw s.draws).getLsbD 0
      rxData := (Config.draw (s.draws + 1)).setWidth 8
      irqeReadyEn := (Config.draw (s.draws + 2)).getLsbD 0
      irqeDoneEn := (Config.draw (s.draws + 3)).getLsbD 0
      draws := s.draws + 4 })

/-- R27: an IRQE write sets both enables in every phase, or faults ReservedBits. -/
def Obligations.IrqeWriteSetsEnables : Prop :=
  ∀ (s : State) (v : Word), s.params.wellFormed = true →
    ((∀ i : Nat, i ≠ s.params.irqeReady → i ≠ s.params.irqeDone → v.getLsbD i = false) →
      portWrite s.params.offIrqe 4 v s = .ok { s with
        irqeReadyEn := v.getLsbD s.params.irqeReady
        irqeDoneEn := v.getLsbD s.params.irqeDone }) ∧
    ((∃ i : Nat, i ≠ s.params.irqeReady ∧ i ≠ s.params.irqeDone ∧ v.getLsbD i = true) →
      portWrite s.params.offIrqe 4 v s = .error .reservedBits)

/-- R264: the order of the checks: BadAccess, then ReservedBits, then the phase, then ReservedInstruction. -/
def Obligations.FaultChecksInOrder : Prop :=
  ∀ (s : State) (off bytes : Nat) (v : Word), s.params.wellFormed = true →
    ((bytes ≠ 4 ∨ off % 4 ≠ 0 ∨ s.params.blockSize ≤ off ∨
        off ∉ [s.params.offInst, s.params.offCtrl, s.params.offIrqe]) →
      portWrite off bytes v s = .error .badAccess) ∧
    (portWrite off bytes v s = .error .reservedBits ↔
      bytes = 4 ∧
        (off = s.params.offCtrl ∧ v &&& ~~~ctrlMask s.params ≠ 0#32 ∨
         off = s.params.offIrqe ∧ v &&& ~~~irqeMask s.params ≠ 0#32)) ∧
    (portWrite off bytes v s = .error .reservedInstruction ↔
      bytes = 4 ∧ off = s.params.offCtrl ∧ v &&& ~~~ctrlMask s.params = 0#32 ∧
        v.getLsbD s.params.ctrlGo = true ∧ v.getLsbD s.params.ctrlReset = false ∧
        s.phase = .idle ∧ dec s.params s.instReg = none) ∧
    (∀ f : Fault, portRead off bytes s = .error f → f = .badAccess)

/-- 20_memory.md section 5: a write is visible to the next access: after an accepted Go, Status shows Ready = 0;
after a ClearGo, Done = 0. -/
def Obligations.WriteVisibleToTheNextRead : Prop :=
  ∀ (s t u : State) (v w : Word), s.params.wellFormed = true →
    portWrite s.params.offCtrl 4 v s = .ok t → portRead s.params.offStat 4 t = .ok (w, u) →
    (v.getLsbD s.params.ctrlGo = true → w.getLsbD s.params.statReady = false) ∧
    (v.getLsbD s.params.ctrlGo = false → w.getLsbD s.params.statDone = false)

/-- R266: the interrupt output is a level of the enables and the phase, if it is wired. -/
def Obligations.InterruptIsALevel : Prop :=
  ∀ s : State, s.irq = true ↔
    s.params.irqWired = true ∧
      (s.irqeReadyEn = true ∧ s.phase = .idle ∨ s.irqeDoneEn = true ∧ ∃ op, s.phase = .done op)

/-- 40_handshake.md section 4, marked as derived there: a soft reset and its release bring the block from any phase to RECOVER
without a fault. -/
def Obligations.SoftResetRecoversFromAnyPhase : Prop :=
  ∀ s : State, s.params.wellFormed = true →
    ∃ t u : State, portWrite s.params.offCtrl 4 (bitMask s.params.ctrlReset) s = .ok t ∧
      portWrite s.params.offCtrl 4 s.params.ctrlIdle t = .ok u ∧
      t.phase = .resetHeld ∧ u.phase = .recover ∧ u.fault = s.fault ∧ u.instReg = s.instReg

/-! ### The handshake as a whole (40_handshake.md section 4, 45_host_protocol.md section 2) -/

/-- 40_handshake.md section 4, marked as derived there, as one sequence of accesses: write INST, write Go, the completion step, the
read, the idle write never fault, append exactly the operation's events, and return the block to RECOVER. -/
def Obligations.HandshakeRunsOneOperation : Prop :=
  ∀ (s : State) (op : Instr), s.params.wellFormed = true → s.phase = .idle →
    ∃ s1 s2 s3 s4 : State,
      portWrite s.params.offInst 4 (encode s.params op) s = .ok s1 ∧
      portWrite s.params.offCtrl 4 (bitMask s.params.ctrlGo) s1 = .ok s2 ∧
      s2.phase = .busy op ∧ engineMove s2 = .next s3 ∧ s3.phase = .done op ∧
      (∀ off : Nat, off = s.params.offStat ∨ off = s.params.offData →
        ∃ w : Word, portRead off 4 s3 = .ok (w, s3.advanceDraws 1)) ∧
      portWrite s.params.offCtrl 4 s.params.ctrlIdle s3 = .ok s4 ∧
      s4.phase = .recover ∧ s4.fault = s.fault ∧ s4.busLog = s.busLog ++ resultEvents s3 op ∧
      s4.irqeReadyEn = s.irqeReadyEn ∧ s4.irqeDoneEn = s.irqeDoneEn ∧
      s4.instReg = encode s.params op

/-- 45_host_protocol.md section 2, for the whole machine under every interleaving: a host that runs PRIM from a clean entry, with
an interrupt handler or without, never faults; when it has ended, exactly the operation's events were appended, and a
result variable holds the masked result. -/
def Obligations.PrimNeverFaultsAndAppendsOneOperation : Prop :=
  ∀ (s : State) (op : Instr) (x : Fin 16) (log : List BusEvent) (r d : Bool),
    s.params.wellFormed = true → CleanEntry s log r d →
    s.host.prog = prim s.params op x ++ [.halt] → s.host.hpc = 0 →
    ∀ t : State, Reaches s t →
      t.fault = none ∧
      (HostEnded t →
        t.busLog = log ++ resultEvents t op ∧
        (t.phase = .recover ∨ t.phase = .idle) ∧
        (op = .owReset → t.host.vars[x] = some (if t.presenceFlag then bitMask s.params.statPresence else 0#32)) ∧
        (op = .owRdbit → t.host.vars[x] = some (if t.rxData.getLsbD 0 then 1#32 else 0#32)) ∧
        (op = .owRdbyte → t.host.vars[x] = some (t.rxData.setWidth 32)))

/-! ### The Host (45_host_protocol.md) -/

/-- R221: the host statements: constants, AND and ADD modulo 2^32, branches, jump and HALT; RD assigns what the
read gives, WR does the write, POLL goes on exactly when the bit read is the one waited for, and stays else; a
variable never written faults HostUnwritten; a run has ended at HALT with no fault, and there neither the Host nor its
handler makes a further move. -/
def Obligations.HostStatementSemantics : Prop :=
  (∀ (s : State) (x m : Fin 16) (imm : Word) (l : Nat),
    hostStmt (.li x imm) s = .ok (s.setHost
      { s.host with vars := s.host.vars.set x (some imm), hpc := s.host.hpc + 1 }) ∧
    (∀ v : Word, s.host.vars[m] = some v →
      hostStmt (.andi x m imm) s = .ok (s.setHost
        { s.host with vars := s.host.vars.set x (some (v &&& imm)), hpc := s.host.hpc + 1 }) ∧
      hostStmt (.addi x m imm) s = .ok (s.setHost
        { s.host with
          vars := s.host.vars.set x (some (BitVec.ofNat 32 ((v.toNat + imm.toNat) % 2 ^ 32)))
          hpc := s.host.hpc + 1 }) ∧
      hostStmt (.beqi m imm l) s = .ok (s.setHost
        { s.host with hpc := if v = imm then l else s.host.hpc + 1 }) ∧
      hostStmt (.bnei m imm l) s = .ok (s.setHost
        { s.host with hpc := if v ≠ imm then l else s.host.hpc + 1 })) ∧
    (s.host.vars[m] = none →
      hostStmt (.andi x m imm) s = .error .hostUnwritten ∧
      hostStmt (.addi x m imm) s = .error .hostUnwritten ∧
      hostStmt (.beqi m imm l) s = .error .hostUnwritten ∧
      hostStmt (.bnei m imm l) s = .error .hostUnwritten) ∧
    hostStmt (.j l) s = .ok (s.setHost { s.host with hpc := l })) ∧
  (∀ (s : State) (x : Fin 16) (off bit : Nat) (imm : Word) (b : Bool),
    (∀ (w : Word) (t : State), portRead off 4 s = .ok (w, t) →
      hostStmt (.rd x off) s = .ok (t.setHost
        { s.host with vars := s.host.vars.set x (some w), hpc := s.host.hpc + 1 }) ∧
      hostStmt (.poll off bit b) s = .ok (t.setHost
        { s.host with hpc := if w.getLsbD bit = b then s.host.hpc + 1 else s.host.hpc })) ∧
    (∀ t : State, portWrite off 4 imm s = .ok t →
      hostStmt (.wr off imm) s = .ok (t.setHost { s.host with hpc := s.host.hpc + 1 })) ∧
    (∀ f : Fault, portRead off 4 s = .error f →
      hostStmt (.rd x off) s = .error f ∧ hostStmt (.poll off bit b) s = .error f) ∧
    (∀ f : Fault, portWrite off 4 imm s = .error f → hostStmt (.wr off imm) s = .error f)) ∧
  (∀ s : State, HostEnded s → s.nextMove = .host ∨ s.nextMove = .handler → step s = .next s.popMove) ∧
  State.reset.host.hpc = 0 ∧ (∀ x : Fin 16, State.reset.host.vars[x] = none)

/-- 45_host_protocol.md section 2, the interrupt handler of a Host that runs: it disables both sources and sets the
notification, so the level it answered falls. That it does both in one atomic move is the model's choice (log 15). -/
def Obligations.HandlerDisablesTheSource : Prop :=
  ∀ s : State, s.fault = none → s.nextMove = .handler → s.host.running = true → s.host.handler = true → s.irq = true →
    ∃ t : State, step s = .next t ∧ t.irqeReadyEn = false ∧ t.irqeDoneEn = false ∧
      t.host = { s.host with notified := true } ∧ t.irq = false ∧ t.phase = s.phase ∧
      t.busLog = s.busLog

/-- R229: the config byte of every resolution, and the rejection of inverted thresholds before any program is
made. -/
def Obligations.ConfigurationIsValidated : Prop :=
  configByte 9#8 = 0x1F#8 ∧ configByte 10#8 = 0x3F#8 ∧ configByte 11#8 = 0x5F#8 ∧ configByte 12#8 = 0x7F#8 ∧
  (∀ res : Byte, res ∉ [9#8, 10#8, 11#8, 12#8] → configByte res = 0x1F#8) ∧
  (∀ (P : Params) (w : Wait) (cfg : ThermistorConfig), cfg.highThreshold.toInt ≤ cfg.lowThreshold.toInt →
    configure P w cfg = .error .invalidConfiguration) ∧
  (∀ (P : Params) (w : Wait) (cfg : ThermistorConfig), cfg.lowThreshold.toInt < cfg.highThreshold.toInt →
    ∃ prog, configure P w cfg =
      .ok (prog, decide (cfg.resolutionBits ∉ [9#8, 10#8, 11#8, 12#8])))

/-! ### The CRC-8 validator (42_crc8.md) -/

/-- 42_crc8.md section 2, the table the spec marks as derived: every entry is the one the polynomial procedure
computes. -/
def Obligations.CrcTableIsThePolynomial : Prop :=
  crc8Table.length = 256 ∧ ∀ i : Byte, crc8Entry i = crc8FromPolynomial i

/-- R173: the CRC starts at 0 and takes one table step per byte, in order; the corner cases, and the worked example
with its intermediate values. -/
def Obligations.CrcIsOneTableStepPerByte : Prop :=
  crc8 [] = 0#8 ∧
  (∀ (bs : List Byte) (b : Byte), crc8 (bs ++ [b]) = crc8Entry (b ^^^ crc8 bs)) ∧
  (∀ r : Reading, r.crcCalc = crc8 [r.tempLsb, r.tempMsb, r.cfgHigh, r.cfgLow, r.cfgByte, r.reserved0,
    r.reserved1, r.reserved2]) ∧
  ((List.range 8).map fun n =>
      crc8 ([0x91#8, 0x01#8, 0x7F#8, 0xFF#8, 0x00#8, 0xFF#8, 0x00#8, 0x10#8].take (n + 1))) =
    [0x4F#8, 0x59#8, 0xFE#8, 0x5E#8, 0xC4#8, 0x9E#8, 0x0E#8, 0x82#8] ∧
  crc8 (List.replicate 8 0x00#8) = 0x00#8 ∧ crc8 (List.replicate 8 0xFF#8) = 0xC9#8

/-- R174: the verdict, the all-zero reading, that a valid reading with one bit of its CRC byte flipped is
invalid, and the worked example. -/
def Obligations.CrcVerdictComparesTheLastByte : Prop :=
  (∀ r : Reading, r.crcOk = true ↔ r.crcCalc = r.crc) ∧
  (⟨0#8, 0#8, 0#8, 0#8, 0#8, 0#8, 0#8, 0#8, 0#8⟩ : Reading).crcOk = true ∧
  (∀ (r : Reading) (i : Nat), i < 8 → r.crcOk = true →
    ({ r with crc := r.crc ^^^ (1#8 <<< i) } : Reading).crcOk = false) ∧
  (⟨0x91#8, 0x01#8, 0x7F#8, 0xFF#8, 0x00#8, 0xFF#8, 0x00#8, 0x10#8, 0x82#8⟩ : Reading).crcOk = true ∧
  (⟨0x91#8, 0x01#8, 0x7F#8, 0xFF#8, 0x00#8, 0xFF#8, 0x00#8, 0x10#8, 0x83#8⟩ : Reading).crcOk = false

/-- 42_crc8.md section 3, marked as derived there: a reading is valid exactly when the CRC over all nine bytes is 0. -/
def Obligations.CrcResidueForm : Prop :=
  ∀ r : Reading, r.crcOk = true ↔ crc8 r.bytes = 0#8

/-- 42_crc8.md sections 2 and 3 (the table is a permutation): changing any one byte of a message of any length changes its CRC. -/
def Obligations.CrcDetectsAnyOneByteChange : Prop :=
  ∀ (pre post : List Byte) (b b' : Byte), b ≠ b' → crc8 (pre ++ b :: post) ≠ crc8 (pre ++ b' :: post)

/-! ### The temperature decoder (43_temperature_decoder.md) -/

/-- R191 to R193: the raw value, its sign, and the integer part: the raw value over 16, or minus the magnitude
over 16. -/
def Obligations.DecoderIntegerPart : Prop :=
  (∀ lsb msb : Byte, rawTemp lsb msb = (msb.setWidth 16 <<< 8) ||| lsb.setWidth 16 ∧
    negTemp msb = (rawTemp lsb msb).getLsbD 15) ∧
  (∀ lsb msb res : Byte, negTemp msb = false →
    (decodeTemperature lsb msb res).intPart.toInt = ((rawTemp lsb msb).toNat / 16 : Nat)) ∧
  (∀ lsb msb res : Byte, negTemp msb = true →
    (magTemp (rawTemp lsb msb)).toNat = 0x10000 - (rawTemp lsb msb).toNat ∧
    (decodeTemperature lsb msb res).intPart.toInt = -(((magTemp (rawTemp lsb msb)).toNat / 16 : Nat) : Int)) ∧
  (decodeTemperature 0x90#8 0xFC#8 12#8).intPart.toInt = -55

/-- R194, R195: the fraction from the low bits of the raw value, masked by the resolution, an out-of-range
resolution counting as 9 with a warning. -/
def Obligations.DecoderFractionByResolution : Prop :=
  ∀ lsb msb res : Byte,
    (decodeTemperature lsb msb res).resWarn = decide (res ∉ [9#8, 10#8, 11#8, 12#8]) ∧
    (decodeTemperature lsb msb res).frac.toNat =
      (if (rawTemp lsb msb).getLsbD 3 = true then 5000 else 0) +
      (if (rawTemp lsb msb).getLsbD 2 = true ∧ res ∈ [10#8, 11#8, 12#8] then 2500 else 0) +
      (if (rawTemp lsb msb).getLsbD 1 = true ∧ res ∈ [11#8, 12#8] then 1250 else 0) +
      (if (rawTemp lsb msb).getLsbD 0 = true ∧ res = 12#8 then 625 else 0)

/-- 43_temperature_decoder.md section 3, marked as derived there: the ranges of every output. -/
def Obligations.DecoderOutputRanges : Prop :=
  ∀ lsb msb res : Byte,
    -2048 ≤ (decodeTemperature lsb msb res).intPart.toInt ∧
    (decodeTemperature lsb msb res).intPart.toInt ≤ (if negTemp msb then 0 else 2047) ∧
    (negTemp msb = false → 0 ≤ (decodeTemperature lsb msb res).intPart.toInt) ∧
    (decodeTemperature lsb msb res).frac.toNat ≤ 9375 ∧
    (decodeTemperature lsb msb res).frac.toNat % 625 = 0

/-- 43_temperature_decoder.md section 3, marked as derived there: a non-negative reading at resolution 12 is exact, and a negative
one need not be: 0xFF6E gives -9 and 8750. -/
def Obligations.DecoderExactWhenNotNegative : Prop :=
  (∀ lsb msb : Byte, negTemp msb = false →
    160000 * (decodeTemperature lsb msb 12#8).intPart.toInt + 16 * ((decodeTemperature lsb msb 12#8).frac.toNat : Int) =
      10000 * ((rawTemp lsb msb).toNat : Int)) ∧
  (decodeTemperature 0x6E#8 0xFF#8 12#8).intPart.toInt = -9 ∧
  (decodeTemperature 0x6E#8 0xFF#8 12#8).frac = 8750#16

/-- 43_temperature_decoder.md section 3, marked as derived there: the sign of a reading between -1 and 0 is lost in the integer
part, and the resolution masks only the fraction. -/
def Obligations.DecoderLosesSmallSigns : Prop :=
  (∀ lsb msb res : Byte, 0xFFF1#16 ≤ rawTemp lsb msb → (decodeTemperature lsb msb res).intPart = 0#16) ∧
  (∀ lsb msb res res' : Byte,
    (decodeTemperature lsb msb res).intPart = (decodeTemperature lsb msb res').intPart)
end

