-- ==== Sys2Proof/Laws/Decode.lean ====
section
/-! SUPPORT. The operand of an instruction word lies in the low byte, where every code is 0 (00_scope.md R9), so the
masks of 30_encoding.md R83 give back the code and the operand. -/

namespace Sys2Proof.Laws

/-- A code has no bit in its low byte. -/
theorem code_low_bit_clear {c : Word} (h : c &&& 0xFF#32 = 0#32) {i : Nat} (hi : i < 8) :
    c.getLsbD i = false := by
  have hm : ∀ i : Fin 8, (0xFF#32 : Word).getLsbD i = true := by decide
  have hc := congrArg (fun w => w.getLsbD i) h
  simpa only [BitVec.getLsbD_and, hm ⟨i, hi⟩, Bool.and_true, BitVec.getLsbD_zero] using hc

/-- The mask of a byte operand, bit by bit. -/
theorem getLsbD_byteMask {i : Nat} (hi : i < 32) : (~~~0xFF#32 : Word).getLsbD i = decide (8 ≤ i) := by
  have h : ∀ i : Fin 32, (~~~0xFF#32 : Word).getLsbD i = decide (8 ≤ i.val) := by decide
  exact h ⟨i, hi⟩

/-- The mask of a bit operand, bit by bit. -/
theorem getLsbD_bitOperandMask {i : Nat} (hi : i < 32) :
    (~~~1#32 : Word).getLsbD i = decide (1 ≤ i) := by
  have h : ∀ i : Fin 32, (~~~1#32 : Word).getLsbD i = decide (1 ≤ i.val) := by decide
  exact h ⟨i, hi⟩

/-- Masking off a byte operand gives the code back. -/
theorem strip_byteOperand {c : Word} (v : Byte) (h : c &&& 0xFF#32 = 0#32) :
    (c ||| v.setWidth 32) &&& ~~~0xFF#32 = c := by
  apply BitVec.eq_of_getLsbD_eq
  intro i hi
  simp only [BitVec.getLsbD_and, BitVec.getLsbD_or, BitVec.getLsbD_setWidth, getLsbD_byteMask hi]
  by_cases h8 : 8 ≤ i
  · simp [h8]
  · simp [h8, code_low_bit_clear h (show i < 8 by omega)]

/-- The low byte is the byte operand. -/
theorem low_byteOperand {c : Word} (v : Byte) (h : c &&& 0xFF#32 = 0#32) :
    (c ||| v.setWidth 32).setWidth 8 = v := by
  apply BitVec.eq_of_getLsbD_eq
  intro i hi
  simp only [BitVec.getLsbD_setWidth, BitVec.getLsbD_or]
  simp only [hi, show i < 32 by omega, code_low_bit_clear h hi, decide_true, Bool.true_and, Bool.false_or]

/-- Masking off a bit operand gives the code back, with either mask. -/
theorem strip_bitOperand {c : Word} (b : Bool) (h : c &&& 0xFF#32 = 0#32) :
    (c ||| (BitVec.ofBool b).setWidth 32) &&& ~~~1#32 = c ∧
    (c ||| (BitVec.ofBool b).setWidth 32) &&& ~~~0xFF#32 = c := by
  have hb : ∀ i, 1 ≤ i → (BitVec.ofBool b).getLsbD i = false := fun i hi => BitVec.getLsbD_of_ge _ _ hi
  constructor
  · apply BitVec.eq_of_getLsbD_eq
    intro i hi
    simp only [BitVec.getLsbD_and, BitVec.getLsbD_or, BitVec.getLsbD_setWidth, getLsbD_bitOperandMask hi]
    by_cases h1 : 1 ≤ i
    · simp [h1]
    · simp [h1, code_low_bit_clear h (show i < 8 by omega)]
  · apply BitVec.eq_of_getLsbD_eq
    intro i hi
    simp only [BitVec.getLsbD_and, BitVec.getLsbD_or, BitVec.getLsbD_setWidth, getLsbD_byteMask hi]
    by_cases h8 : 8 ≤ i
    · simp [h8, hb i (by omega)]
    · simp [h8, code_low_bit_clear h (show i < 8 by omega)]

/-- Bit 0 is the bit operand. -/
theorem low_bitOperand {c : Word} (b : Bool) (h : c &&& 0xFF#32 = 0#32) :
    (c ||| (BitVec.ofBool b).setWidth 32).getLsbD 0 = b := by
  rw [BitVec.getLsbD_or, code_low_bit_clear h (by omega)]
  cases b <;> simp

/-- A code is not changed by masking off an operand. -/
theorem strip_code {c : Word} (h : c &&& 0xFF#32 = 0#32) : c &&& ~~~0xFF#32 = c := by
  simpa using strip_byteOperand 0#8 h

/-- A word that is a code under the bit mask is that code under the byte mask. -/
theorem strip_bit_then_byte {w c : Word} (hw : w &&& ~~~1#32 = c) (hc : c &&& 0xFF#32 = 0#32) :
    w &&& ~~~0xFF#32 = c := by
  rw [← strip_code hc, ← hw, BitVec.and_assoc]
  congr 1

/-- Every code of codes that meet 00_scope.md R9 has its low byte clear. -/
theorem code_low_byte_clear {P : Params} (h : P.codesOk = true) (i : Instr) :
    i.code P &&& 0xFF#32 = 0#32 := by
  simp only [Params.codesOk, Params.codes, List.all_cons, List.all_nil, Bool.and_eq_true, beq_iff_eq] at h
  obtain ⟨-, h1, h2, h3, h4, h5, -⟩ := h
  cases i <;> assumption

/-- The last clause of 00_scope.md R9 follows from the others: no code with an operand is another code. -/
theorem params_codes_collide_nowhere {P : Params} (h : P.codesOk = true) (c : Word) (hc : c ∈ P.codes) :
    (P.opWriteBit ||| 1#32 = c → c = P.opWriteBit) ∧
    (∀ v : Byte, P.opWriteByte ||| v.setWidth 32 = c → c = P.opWriteByte) := by
  have hl : c &&& 0xFF#32 = 0#32 := by
    simp only [Params.codesOk, Bool.and_eq_true, List.all_eq_true, beq_iff_eq] at h
    exact h.2 c hc
  constructor
  · intro e
    have hs := (strip_bitOperand true (code_low_byte_clear h (.owWrbit true))).2
    simp only [Instr.code] at hs
    rw [← strip_code hl, ← e]
    exact hs
  · intro v e
    have hs := strip_byteOperand v (code_low_byte_clear h (.owWrbyte v))
    simp only [Instr.code] at hs
    rw [← strip_code hl, ← e]
    exact hs

end Sys2Proof.Laws
end

