-- ==== Sys2Proof/Laws/State.lean ====
section
/-! SUPPORT. What each named update of the state does to each field: one lemma per field per update. -/

namespace Sys2Proof.Machine

section raise
@[simp] theorem State.raise_params (f : Fault) (s : State) :
    (s.raise f).params = s.params := rfl
@[simp] theorem State.raise_instReg (f : Fault) (s : State) :
    (s.raise f).instReg = s.instReg := rfl
@[simp] theorem State.raise_irqeReadyEn (f : Fault) (s : State) :
    (s.raise f).irqeReadyEn = s.irqeReadyEn := rfl
@[simp] theorem State.raise_irqeDoneEn (f : Fault) (s : State) :
    (s.raise f).irqeDoneEn = s.irqeDoneEn := rfl
@[simp] theorem State.raise_phase (f : Fault) (s : State) :
    (s.raise f).phase = s.phase := rfl
@[simp] theorem State.raise_rxData (f : Fault) (s : State) :
    (s.raise f).rxData = s.rxData := rfl
@[simp] theorem State.raise_presenceFlag (f : Fault) (s : State) :
    (s.raise f).presenceFlag = s.presenceFlag := rfl
@[simp] theorem State.raise_fault (f : Fault) (s : State) :
    (s.raise f).fault = some f := rfl
@[simp] theorem State.raise_busLog (f : Fault) (s : State) :
    (s.raise f).busLog = s.busLog := rfl
@[simp] theorem State.raise_busAnswers (f : Fault) (s : State) :
    (s.raise f).busAnswers = s.busAnswers := rfl
@[simp] theorem State.raise_host (f : Fault) (s : State) :
    (s.raise f).host = s.host := rfl
@[simp] theorem State.raise_schedule (f : Fault) (s : State) :
    (s.raise f).schedule = s.schedule := rfl
@[simp] theorem State.raise_turn (f : Fault) (s : State) :
    (s.raise f).turn = s.turn := rfl
@[simp] theorem State.raise_draws (f : Fault) (s : State) :
    (s.raise f).draws = s.draws := rfl
end raise

section clearFault
@[simp] theorem State.clearFault_params (s : State) :
    (s.clearFault).params = s.params := rfl
@[simp] theorem State.clearFault_instReg (s : State) :
    (s.clearFault).instReg = s.instReg := rfl
@[simp] theorem State.clearFault_irqeReadyEn (s : State) :
    (s.clearFault).irqeReadyEn = s.irqeReadyEn := rfl
@[simp] theorem State.clearFault_irqeDoneEn (s : State) :
    (s.clearFault).irqeDoneEn = s.irqeDoneEn := rfl
@[simp] theorem State.clearFault_phase (s : State) :
    (s.clearFault).phase = s.phase := rfl
@[simp] theorem State.clearFault_rxData (s : State) :
    (s.clearFault).rxData = s.rxData := rfl
@[simp] theorem State.clearFault_presenceFlag (s : State) :
    (s.clearFault).presenceFlag = s.presenceFlag := rfl
@[simp] theorem State.clearFault_fault (s : State) :
    (s.clearFault).fault = none := rfl
@[simp] theorem State.clearFault_busLog (s : State) :
    (s.clearFault).busLog = s.busLog := rfl
@[simp] theorem State.clearFault_busAnswers (s : State) :
    (s.clearFault).busAnswers = s.busAnswers := rfl
@[simp] theorem State.clearFault_host (s : State) :
    (s.clearFault).host = s.host := rfl
@[simp] theorem State.clearFault_schedule (s : State) :
    (s.clearFault).schedule = s.schedule := rfl
@[simp] theorem State.clearFault_turn (s : State) :
    (s.clearFault).turn = s.turn := rfl
@[simp] theorem State.clearFault_draws (s : State) :
    (s.clearFault).draws = s.draws := rfl
end clearFault

section advanceDraws
@[simp] theorem State.advanceDraws_params (n : Nat) (s : State) :
    (s.advanceDraws n).params = s.params := rfl
@[simp] theorem State.advanceDraws_instReg (n : Nat) (s : State) :
    (s.advanceDraws n).instReg = s.instReg := rfl
@[simp] theorem State.advanceDraws_irqeReadyEn (n : Nat) (s : State) :
    (s.advanceDraws n).irqeReadyEn = s.irqeReadyEn := rfl
@[simp] theorem State.advanceDraws_irqeDoneEn (n : Nat) (s : State) :
    (s.advanceDraws n).irqeDoneEn = s.irqeDoneEn := rfl
@[simp] theorem State.advanceDraws_phase (n : Nat) (s : State) :
    (s.advanceDraws n).phase = s.phase := rfl
@[simp] theorem State.advanceDraws_rxData (n : Nat) (s : State) :
    (s.advanceDraws n).rxData = s.rxData := rfl
@[simp] theorem State.advanceDraws_presenceFlag (n : Nat) (s : State) :
    (s.advanceDraws n).presenceFlag = s.presenceFlag := rfl
@[simp] theorem State.advanceDraws_fault (n : Nat) (s : State) :
    (s.advanceDraws n).fault = s.fault := rfl
@[simp] theorem State.advanceDraws_busLog (n : Nat) (s : State) :
    (s.advanceDraws n).busLog = s.busLog := rfl
@[simp] theorem State.advanceDraws_busAnswers (n : Nat) (s : State) :
    (s.advanceDraws n).busAnswers = s.busAnswers := rfl
@[simp] theorem State.advanceDraws_host (n : Nat) (s : State) :
    (s.advanceDraws n).host = s.host := rfl
@[simp] theorem State.advanceDraws_schedule (n : Nat) (s : State) :
    (s.advanceDraws n).schedule = s.schedule := rfl
@[simp] theorem State.advanceDraws_turn (n : Nat) (s : State) :
    (s.advanceDraws n).turn = s.turn := rfl
@[simp] theorem State.advanceDraws_draws (n : Nat) (s : State) :
    (s.advanceDraws n).draws = s.draws + n := rfl
end advanceDraws

section setPhase
@[simp] theorem State.setPhase_params (p : Phase) (s : State) :
    (s.setPhase p).params = s.params := rfl
@[simp] theorem State.setPhase_instReg (p : Phase) (s : State) :
    (s.setPhase p).instReg = s.instReg := rfl
@[simp] theorem State.setPhase_irqeReadyEn (p : Phase) (s : State) :
    (s.setPhase p).irqeReadyEn = s.irqeReadyEn := rfl
@[simp] theorem State.setPhase_irqeDoneEn (p : Phase) (s : State) :
    (s.setPhase p).irqeDoneEn = s.irqeDoneEn := rfl
@[simp] theorem State.setPhase_phase (p : Phase) (s : State) :
    (s.setPhase p).phase = p := rfl
@[simp] theorem State.setPhase_rxData (p : Phase) (s : State) :
    (s.setPhase p).rxData = s.rxData := rfl
@[simp] theorem State.setPhase_presenceFlag (p : Phase) (s : State) :
    (s.setPhase p).presenceFlag = s.presenceFlag := rfl
@[simp] theorem State.setPhase_fault (p : Phase) (s : State) :
    (s.setPhase p).fault = s.fault := rfl
@[simp] theorem State.setPhase_busLog (p : Phase) (s : State) :
    (s.setPhase p).busLog = s.busLog := rfl
@[simp] theorem State.setPhase_busAnswers (p : Phase) (s : State) :
    (s.setPhase p).busAnswers = s.busAnswers := rfl
@[simp] theorem State.setPhase_host (p : Phase) (s : State) :
    (s.setPhase p).host = s.host := rfl
@[simp] theorem State.setPhase_schedule (p : Phase) (s : State) :
    (s.setPhase p).schedule = s.schedule := rfl
@[simp] theorem State.setPhase_turn (p : Phase) (s : State) :
    (s.setPhase p).turn = s.turn := rfl
@[simp] theorem State.setPhase_draws (p : Phase) (s : State) :
    (s.setPhase p).draws = s.draws := rfl
end setPhase

section logEvents
@[simp] theorem State.logEvents_params (es : List BusEvent) (s : State) :
    (s.logEvents es).params = s.params := rfl
@[simp] theorem State.logEvents_instReg (es : List BusEvent) (s : State) :
    (s.logEvents es).instReg = s.instReg := rfl
@[simp] theorem State.logEvents_irqeReadyEn (es : List BusEvent) (s : State) :
    (s.logEvents es).irqeReadyEn = s.irqeReadyEn := rfl
@[simp] theorem State.logEvents_irqeDoneEn (es : List BusEvent) (s : State) :
    (s.logEvents es).irqeDoneEn = s.irqeDoneEn := rfl
@[simp] theorem State.logEvents_phase (es : List BusEvent) (s : State) :
    (s.logEvents es).phase = s.phase := rfl
@[simp] theorem State.logEvents_rxData (es : List BusEvent) (s : State) :
    (s.logEvents es).rxData = s.rxData := rfl
@[simp] theorem State.logEvents_presenceFlag (es : List BusEvent) (s : State) :
    (s.logEvents es).presenceFlag = s.presenceFlag := rfl
@[simp] theorem State.logEvents_fault (es : List BusEvent) (s : State) :
    (s.logEvents es).fault = s.fault := rfl
@[simp] theorem State.logEvents_busLog (es : List BusEvent) (s : State) :
    (s.logEvents es).busLog = s.busLog ++ es := rfl
@[simp] theorem State.logEvents_busAnswers (es : List BusEvent) (s : State) :
    (s.logEvents es).busAnswers = s.busAnswers := rfl
@[simp] theorem State.logEvents_host (es : List BusEvent) (s : State) :
    (s.logEvents es).host = s.host := rfl
@[simp] theorem State.logEvents_schedule (es : List BusEvent) (s : State) :
    (s.logEvents es).schedule = s.schedule := rfl
@[simp] theorem State.logEvents_turn (es : List BusEvent) (s : State) :
    (s.logEvents es).turn = s.turn := rfl
@[simp] theorem State.logEvents_draws (es : List BusEvent) (s : State) :
    (s.logEvents es).draws = s.draws := rfl
end logEvents

section popAnswer
@[simp] theorem State.popAnswer_params (s : State) :
    (s.popAnswer).params = s.params := rfl
@[simp] theorem State.popAnswer_instReg (s : State) :
    (s.popAnswer).instReg = s.instReg := rfl
@[simp] theorem State.popAnswer_irqeReadyEn (s : State) :
    (s.popAnswer).irqeReadyEn = s.irqeReadyEn := rfl
@[simp] theorem State.popAnswer_irqeDoneEn (s : State) :
    (s.popAnswer).irqeDoneEn = s.irqeDoneEn := rfl
@[simp] theorem State.popAnswer_phase (s : State) :
    (s.popAnswer).phase = s.phase := rfl
@[simp] theorem State.popAnswer_rxData (s : State) :
    (s.popAnswer).rxData = s.rxData := rfl
@[simp] theorem State.popAnswer_presenceFlag (s : State) :
    (s.popAnswer).presenceFlag = s.presenceFlag := rfl
@[simp] theorem State.popAnswer_fault (s : State) :
    (s.popAnswer).fault = s.fault := rfl
@[simp] theorem State.popAnswer_busLog (s : State) :
    (s.popAnswer).busLog = s.busLog := rfl
@[simp] theorem State.popAnswer_busAnswers (s : State) :
    (s.popAnswer).busAnswers = s.busAnswers.tail := rfl
@[simp] theorem State.popAnswer_host (s : State) :
    (s.popAnswer).host = s.host := rfl
@[simp] theorem State.popAnswer_schedule (s : State) :
    (s.popAnswer).schedule = s.schedule := rfl
@[simp] theorem State.popAnswer_turn (s : State) :
    (s.popAnswer).turn = s.turn := rfl
@[simp] theorem State.popAnswer_draws (s : State) :
    (s.popAnswer).draws = s.draws := rfl
end popAnswer

section afterReadSlot
@[simp] theorem State.afterReadSlot_params (s : State) :
    (s.afterReadSlot).params = s.params := rfl
@[simp] theorem State.afterReadSlot_instReg (s : State) :
    (s.afterReadSlot).instReg = s.instReg := rfl
@[simp] theorem State.afterReadSlot_irqeReadyEn (s : State) :
    (s.afterReadSlot).irqeReadyEn = s.irqeReadyEn := rfl
@[simp] theorem State.afterReadSlot_irqeDoneEn (s : State) :
    (s.afterReadSlot).irqeDoneEn = s.irqeDoneEn := rfl
@[simp] theorem State.afterReadSlot_phase (s : State) :
    (s.afterReadSlot).phase = s.phase := rfl
@[simp] theorem State.afterReadSlot_rxData (s : State) :
    (s.afterReadSlot).rxData = s.rxData := rfl
@[simp] theorem State.afterReadSlot_presenceFlag (s : State) :
    (s.afterReadSlot).presenceFlag = s.presenceFlag := rfl
@[simp] theorem State.afterReadSlot_fault (s : State) :
    (s.afterReadSlot).fault = s.fault := rfl
@[simp] theorem State.afterReadSlot_busLog (s : State) :
    (s.afterReadSlot).busLog = s.busLog ++ [.readSlot s.readAnswer] := rfl
@[simp] theorem State.afterReadSlot_busAnswers (s : State) :
    (s.afterReadSlot).busAnswers = s.busAnswers.tail := rfl
@[simp] theorem State.afterReadSlot_host (s : State) :
    (s.afterReadSlot).host = s.host := rfl
@[simp] theorem State.afterReadSlot_schedule (s : State) :
    (s.afterReadSlot).schedule = s.schedule := rfl
@[simp] theorem State.afterReadSlot_turn (s : State) :
    (s.afterReadSlot).turn = s.turn := rfl
@[simp] theorem State.afterReadSlot_draws (s : State) :
    (s.afterReadSlot).draws = s.draws := rfl
end afterReadSlot

section setRx
@[simp] theorem State.setRx_params (v : Byte) (s : State) :
    (s.setRx v).params = s.params := rfl
@[simp] theorem State.setRx_instReg (v : Byte) (s : State) :
    (s.setRx v).instReg = s.instReg := rfl
@[simp] theorem State.setRx_irqeReadyEn (v : Byte) (s : State) :
    (s.setRx v).irqeReadyEn = s.irqeReadyEn := rfl
@[simp] theorem State.setRx_irqeDoneEn (v : Byte) (s : State) :
    (s.setRx v).irqeDoneEn = s.irqeDoneEn := rfl
@[simp] theorem State.setRx_phase (v : Byte) (s : State) :
    (s.setRx v).phase = s.phase := rfl
@[simp] theorem State.setRx_rxData (v : Byte) (s : State) :
    (s.setRx v).rxData = v := rfl
@[simp] theorem State.setRx_presenceFlag (v : Byte) (s : State) :
    (s.setRx v).presenceFlag = s.presenceFlag := rfl
@[simp] theorem State.setRx_fault (v : Byte) (s : State) :
    (s.setRx v).fault = s.fault := rfl
@[simp] theorem State.setRx_busLog (v : Byte) (s : State) :
    (s.setRx v).busLog = s.busLog := rfl
@[simp] theorem State.setRx_busAnswers (v : Byte) (s : State) :
    (s.setRx v).busAnswers = s.busAnswers := rfl
@[simp] theorem State.setRx_host (v : Byte) (s : State) :
    (s.setRx v).host = s.host := rfl
@[simp] theorem State.setRx_schedule (v : Byte) (s : State) :
    (s.setRx v).schedule = s.schedule := rfl
@[simp] theorem State.setRx_turn (v : Byte) (s : State) :
    (s.setRx v).turn = s.turn := rfl
@[simp] theorem State.setRx_draws (v : Byte) (s : State) :
    (s.setRx v).draws = s.draws := rfl
end setRx

section setPresence
@[simp] theorem State.setPresence_params (b : Bool) (s : State) :
    (s.setPresence b).params = s.params := rfl
@[simp] theorem State.setPresence_instReg (b : Bool) (s : State) :
    (s.setPresence b).instReg = s.instReg := rfl
@[simp] theorem State.setPresence_irqeReadyEn (b : Bool) (s : State) :
    (s.setPresence b).irqeReadyEn = s.irqeReadyEn := rfl
@[simp] theorem State.setPresence_irqeDoneEn (b : Bool) (s : State) :
    (s.setPresence b).irqeDoneEn = s.irqeDoneEn := rfl
@[simp] theorem State.setPresence_phase (b : Bool) (s : State) :
    (s.setPresence b).phase = s.phase := rfl
@[simp] theorem State.setPresence_rxData (b : Bool) (s : State) :
    (s.setPresence b).rxData = s.rxData := rfl
@[simp] theorem State.setPresence_presenceFlag (b : Bool) (s : State) :
    (s.setPresence b).presenceFlag = b := rfl
@[simp] theorem State.setPresence_fault (b : Bool) (s : State) :
    (s.setPresence b).fault = s.fault := rfl
@[simp] theorem State.setPresence_busLog (b : Bool) (s : State) :
    (s.setPresence b).busLog = s.busLog := rfl
@[simp] theorem State.setPresence_busAnswers (b : Bool) (s : State) :
    (s.setPresence b).busAnswers = s.busAnswers := rfl
@[simp] theorem State.setPresence_host (b : Bool) (s : State) :
    (s.setPresence b).host = s.host := rfl
@[simp] theorem State.setPresence_schedule (b : Bool) (s : State) :
    (s.setPresence b).schedule = s.schedule := rfl
@[simp] theorem State.setPresence_turn (b : Bool) (s : State) :
    (s.setPresence b).turn = s.turn := rfl
@[simp] theorem State.setPresence_draws (b : Bool) (s : State) :
    (s.setPresence b).draws = s.draws := rfl
end setPresence

section setInst
@[simp] theorem State.setInst_params (v : Word) (s : State) :
    (s.setInst v).params = s.params := rfl
@[simp] theorem State.setInst_instReg (v : Word) (s : State) :
    (s.setInst v).instReg = v := rfl
@[simp] theorem State.setInst_irqeReadyEn (v : Word) (s : State) :
    (s.setInst v).irqeReadyEn = s.irqeReadyEn := rfl
@[simp] theorem State.setInst_irqeDoneEn (v : Word) (s : State) :
    (s.setInst v).irqeDoneEn = s.irqeDoneEn := rfl
@[simp] theorem State.setInst_phase (v : Word) (s : State) :
    (s.setInst v).phase = s.phase := rfl
@[simp] theorem State.setInst_rxData (v : Word) (s : State) :
    (s.setInst v).rxData = s.rxData := rfl
@[simp] theorem State.setInst_presenceFlag (v : Word) (s : State) :
    (s.setInst v).presenceFlag = s.presenceFlag := rfl
@[simp] theorem State.setInst_fault (v : Word) (s : State) :
    (s.setInst v).fault = s.fault := rfl
@[simp] theorem State.setInst_busLog (v : Word) (s : State) :
    (s.setInst v).busLog = s.busLog := rfl
@[simp] theorem State.setInst_busAnswers (v : Word) (s : State) :
    (s.setInst v).busAnswers = s.busAnswers := rfl
@[simp] theorem State.setInst_host (v : Word) (s : State) :
    (s.setInst v).host = s.host := rfl
@[simp] theorem State.setInst_schedule (v : Word) (s : State) :
    (s.setInst v).schedule = s.schedule := rfl
@[simp] theorem State.setInst_turn (v : Word) (s : State) :
    (s.setInst v).turn = s.turn := rfl
@[simp] theorem State.setInst_draws (v : Word) (s : State) :
    (s.setInst v).draws = s.draws := rfl
end setInst

section setEnables
@[simp] theorem State.setEnables_params (r d : Bool) (s : State) :
    (s.setEnables r d).params = s.params := rfl
@[simp] theorem State.setEnables_instReg (r d : Bool) (s : State) :
    (s.setEnables r d).instReg = s.instReg := rfl
@[simp] theorem State.setEnables_irqeReadyEn (r d : Bool) (s : State) :
    (s.setEnables r d).irqeReadyEn = r := rfl
@[simp] theorem State.setEnables_irqeDoneEn (r d : Bool) (s : State) :
    (s.setEnables r d).irqeDoneEn = d := rfl
@[simp] theorem State.setEnables_phase (r d : Bool) (s : State) :
    (s.setEnables r d).phase = s.phase := rfl
@[simp] theorem State.setEnables_rxData (r d : Bool) (s : State) :
    (s.setEnables r d).rxData = s.rxData := rfl
@[simp] theorem State.setEnables_presenceFlag (r d : Bool) (s : State) :
    (s.setEnables r d).presenceFlag = s.presenceFlag := rfl
@[simp] theorem State.setEnables_fault (r d : Bool) (s : State) :
    (s.setEnables r d).fault = s.fault := rfl
@[simp] theorem State.setEnables_busLog (r d : Bool) (s : State) :
    (s.setEnables r d).busLog = s.busLog := rfl
@[simp] theorem State.setEnables_busAnswers (r d : Bool) (s : State) :
    (s.setEnables r d).busAnswers = s.busAnswers := rfl
@[simp] theorem State.setEnables_host (r d : Bool) (s : State) :
    (s.setEnables r d).host = s.host := rfl
@[simp] theorem State.setEnables_schedule (r d : Bool) (s : State) :
    (s.setEnables r d).schedule = s.schedule := rfl
@[simp] theorem State.setEnables_turn (r d : Bool) (s : State) :
    (s.setEnables r d).turn = s.turn := rfl
@[simp] theorem State.setEnables_draws (r d : Bool) (s : State) :
    (s.setEnables r d).draws = s.draws := rfl
end setEnables

section dropResults
@[simp] theorem State.dropResults_params (s : State) :
    (s.dropResults).params = s.params := rfl
@[simp] theorem State.dropResults_instReg (s : State) :
    (s.dropResults).instReg = s.instReg := rfl
@[simp] theorem State.dropResults_irqeReadyEn (s : State) :
    (s.dropResults).irqeReadyEn = (Config.draw (s.draws + 2)).getLsbD 0 := rfl
@[simp] theorem State.dropResults_irqeDoneEn (s : State) :
    (s.dropResults).irqeDoneEn = (Config.draw (s.draws + 3)).getLsbD 0 := rfl
@[simp] theorem State.dropResults_phase (s : State) :
    (s.dropResults).phase = s.phase := rfl
@[simp] theorem State.dropResults_rxData (s : State) :
    (s.dropResults).rxData = (Config.draw (s.draws + 1)).setWidth 8 := rfl
@[simp] theorem State.dropResults_presenceFlag (s : State) :
    (s.dropResults).presenceFlag = (Config.draw s.draws).getLsbD 0 := rfl
@[simp] theorem State.dropResults_fault (s : State) :
    (s.dropResults).fault = s.fault := rfl
@[simp] theorem State.dropResults_busLog (s : State) :
    (s.dropResults).busLog = s.busLog := rfl
@[simp] theorem State.dropResults_busAnswers (s : State) :
    (s.dropResults).busAnswers = s.busAnswers := rfl
@[simp] theorem State.dropResults_host (s : State) :
    (s.dropResults).host = s.host := rfl
@[simp] theorem State.dropResults_schedule (s : State) :
    (s.dropResults).schedule = s.schedule := rfl
@[simp] theorem State.dropResults_turn (s : State) :
    (s.dropResults).turn = s.turn := rfl
@[simp] theorem State.dropResults_draws (s : State) :
    (s.dropResults).draws = s.draws + 4 := rfl
end dropResults

section popMove
@[simp] theorem State.popMove_params (s : State) :
    (s.popMove).params = s.params := rfl
@[simp] theorem State.popMove_instReg (s : State) :
    (s.popMove).instReg = s.instReg := rfl
@[simp] theorem State.popMove_irqeReadyEn (s : State) :
    (s.popMove).irqeReadyEn = s.irqeReadyEn := rfl
@[simp] theorem State.popMove_irqeDoneEn (s : State) :
    (s.popMove).irqeDoneEn = s.irqeDoneEn := rfl
@[simp] theorem State.popMove_phase (s : State) :
    (s.popMove).phase = s.phase := rfl
@[simp] theorem State.popMove_rxData (s : State) :
    (s.popMove).rxData = s.rxData := rfl
@[simp] theorem State.popMove_presenceFlag (s : State) :
    (s.popMove).presenceFlag = s.presenceFlag := rfl
@[simp] theorem State.popMove_fault (s : State) :
    (s.popMove).fault = s.fault := rfl
@[simp] theorem State.popMove_busLog (s : State) :
    (s.popMove).busLog = s.busLog := rfl
@[simp] theorem State.popMove_busAnswers (s : State) :
    (s.popMove).busAnswers = s.busAnswers := rfl
@[simp] theorem State.popMove_host (s : State) :
    (s.popMove).host = s.host := rfl
@[simp] theorem State.popMove_schedule (s : State) :
    (s.popMove).schedule = s.schedule.tail := rfl
@[simp] theorem State.popMove_turn (s : State) :
    (s.popMove).turn = s.turn + 1 := rfl
@[simp] theorem State.popMove_draws (s : State) :
    (s.popMove).draws = s.draws := rfl
end popMove

section setHost
@[simp] theorem State.setHost_params (h : HostState) (s : State) :
    (s.setHost h).params = s.params := rfl
@[simp] theorem State.setHost_instReg (h : HostState) (s : State) :
    (s.setHost h).instReg = s.instReg := rfl
@[simp] theorem State.setHost_irqeReadyEn (h : HostState) (s : State) :
    (s.setHost h).irqeReadyEn = s.irqeReadyEn := rfl
@[simp] theorem State.setHost_irqeDoneEn (h : HostState) (s : State) :
    (s.setHost h).irqeDoneEn = s.irqeDoneEn := rfl
@[simp] theorem State.setHost_phase (h : HostState) (s : State) :
    (s.setHost h).phase = s.phase := rfl
@[simp] theorem State.setHost_rxData (h : HostState) (s : State) :
    (s.setHost h).rxData = s.rxData := rfl
@[simp] theorem State.setHost_presenceFlag (h : HostState) (s : State) :
    (s.setHost h).presenceFlag = s.presenceFlag := rfl
@[simp] theorem State.setHost_fault (h : HostState) (s : State) :
    (s.setHost h).fault = s.fault := rfl
@[simp] theorem State.setHost_busLog (h : HostState) (s : State) :
    (s.setHost h).busLog = s.busLog := rfl
@[simp] theorem State.setHost_busAnswers (h : HostState) (s : State) :
    (s.setHost h).busAnswers = s.busAnswers := rfl
@[simp] theorem State.setHost_host (h : HostState) (s : State) :
    (s.setHost h).host = h := rfl
@[simp] theorem State.setHost_schedule (h : HostState) (s : State) :
    (s.setHost h).schedule = s.schedule := rfl
@[simp] theorem State.setHost_turn (h : HostState) (s : State) :
    (s.setHost h).turn = s.turn := rfl
@[simp] theorem State.setHost_draws (h : HostState) (s : State) :
    (s.setHost h).draws = s.draws := rfl
end setHost

section hostAdvance
@[simp] theorem State.hostAdvance_params (s : State) :
    (s.hostAdvance).params = s.params := rfl
@[simp] theorem State.hostAdvance_instReg (s : State) :
    (s.hostAdvance).instReg = s.instReg := rfl
@[simp] theorem State.hostAdvance_irqeReadyEn (s : State) :
    (s.hostAdvance).irqeReadyEn = s.irqeReadyEn := rfl
@[simp] theorem State.hostAdvance_irqeDoneEn (s : State) :
    (s.hostAdvance).irqeDoneEn = s.irqeDoneEn := rfl
@[simp] theorem State.hostAdvance_phase (s : State) :
    (s.hostAdvance).phase = s.phase := rfl
@[simp] theorem State.hostAdvance_rxData (s : State) :
    (s.hostAdvance).rxData = s.rxData := rfl
@[simp] theorem State.hostAdvance_presenceFlag (s : State) :
    (s.hostAdvance).presenceFlag = s.presenceFlag := rfl
@[simp] theorem State.hostAdvance_fault (s : State) :
    (s.hostAdvance).fault = s.fault := rfl
@[simp] theorem State.hostAdvance_busLog (s : State) :
    (s.hostAdvance).busLog = s.busLog := rfl
@[simp] theorem State.hostAdvance_busAnswers (s : State) :
    (s.hostAdvance).busAnswers = s.busAnswers := rfl
@[simp] theorem State.hostAdvance_host (s : State) :
    (s.hostAdvance).host = s.host.advance := rfl
@[simp] theorem State.hostAdvance_schedule (s : State) :
    (s.hostAdvance).schedule = s.schedule := rfl
@[simp] theorem State.hostAdvance_turn (s : State) :
    (s.hostAdvance).turn = s.turn := rfl
@[simp] theorem State.hostAdvance_draws (s : State) :
    (s.hostAdvance).draws = s.draws := rfl
end hostAdvance

section hostAssign
@[simp] theorem State.hostAssign_params (x : Fin 16) (v : Word) (s : State) :
    (s.hostAssign x v).params = s.params := rfl
@[simp] theorem State.hostAssign_instReg (x : Fin 16) (v : Word) (s : State) :
    (s.hostAssign x v).instReg = s.instReg := rfl
@[simp] theorem State.hostAssign_irqeReadyEn (x : Fin 16) (v : Word) (s : State) :
    (s.hostAssign x v).irqeReadyEn = s.irqeReadyEn := rfl
@[simp] theorem State.hostAssign_irqeDoneEn (x : Fin 16) (v : Word) (s : State) :
    (s.hostAssign x v).irqeDoneEn = s.irqeDoneEn := rfl
@[simp] theorem State.hostAssign_phase (x : Fin 16) (v : Word) (s : State) :
    (s.hostAssign x v).phase = s.phase := rfl
@[simp] theorem State.hostAssign_rxData (x : Fin 16) (v : Word) (s : State) :
    (s.hostAssign x v).rxData = s.rxData := rfl
@[simp] theorem State.hostAssign_presenceFlag (x : Fin 16) (v : Word) (s : State) :
    (s.hostAssign x v).presenceFlag = s.presenceFlag := rfl
@[simp] theorem State.hostAssign_fault (x : Fin 16) (v : Word) (s : State) :
    (s.hostAssign x v).fault = s.fault := rfl
@[simp] theorem State.hostAssign_busLog (x : Fin 16) (v : Word) (s : State) :
    (s.hostAssign x v).busLog = s.busLog := rfl
@[simp] theorem State.hostAssign_busAnswers (x : Fin 16) (v : Word) (s : State) :
    (s.hostAssign x v).busAnswers = s.busAnswers := rfl
@[simp] theorem State.hostAssign_host (x : Fin 16) (v : Word) (s : State) :
    (s.hostAssign x v).host = (s.host.writeVar x v).advance := rfl
@[simp] theorem State.hostAssign_schedule (x : Fin 16) (v : Word) (s : State) :
    (s.hostAssign x v).schedule = s.schedule := rfl
@[simp] theorem State.hostAssign_turn (x : Fin 16) (v : Word) (s : State) :
    (s.hostAssign x v).turn = s.turn := rfl
@[simp] theorem State.hostAssign_draws (x : Fin 16) (v : Word) (s : State) :
    (s.hostAssign x v).draws = s.draws := rfl
end hostAssign

@[simp] theorem HostState.writeVar_prog (x : Fin 16) (v : Word) (h : HostState) :
    (h.writeVar x v).prog = h.prog := rfl
@[simp] theorem HostState.writeVar_hpc (x : Fin 16) (v : Word) (h : HostState) :
    (h.writeVar x v).hpc = h.hpc := rfl
@[simp] theorem HostState.writeVar_notified (x : Fin 16) (v : Word) (h : HostState) :
    (h.writeVar x v).notified = h.notified := rfl
@[simp] theorem HostState.writeVar_handler (x : Fin 16) (v : Word) (h : HostState) :
    (h.writeVar x v).handler = h.handler := rfl
@[simp] theorem HostState.writeVar_vars (x : Fin 16) (v : Word) (h : HostState) :
    (h.writeVar x v).vars = h.vars.set x (some v) := rfl
@[simp] theorem HostState.advance_prog (h : HostState) :
    (h.advance).prog = h.prog := rfl
@[simp] theorem HostState.advance_hpc (h : HostState) :
    (h.advance).hpc = h.hpc + 1 := rfl
@[simp] theorem HostState.advance_vars (h : HostState) :
    (h.advance).vars = h.vars := rfl
@[simp] theorem HostState.advance_notified (h : HostState) :
    (h.advance).notified = h.notified := rfl
@[simp] theorem HostState.advance_handler (h : HostState) :
    (h.advance).handler = h.handler := rfl
@[simp] theorem HostState.jump_prog (l : Nat) (h : HostState) :
    (h.jump l).prog = h.prog := rfl
@[simp] theorem HostState.jump_hpc (l : Nat) (h : HostState) :
    (h.jump l).hpc = l := rfl
@[simp] theorem HostState.jump_vars (l : Nat) (h : HostState) :
    (h.jump l).vars = h.vars := rfl
@[simp] theorem HostState.jump_notified (l : Nat) (h : HostState) :
    (h.jump l).notified = h.notified := rfl
@[simp] theorem HostState.jump_handler (l : Nat) (h : HostState) :
    (h.jump l).handler = h.handler := rfl
@[simp] theorem HostState.setNotified_prog (b : Bool) (h : HostState) :
    (h.setNotified b).prog = h.prog := rfl
@[simp] theorem HostState.setNotified_hpc (b : Bool) (h : HostState) :
    (h.setNotified b).hpc = h.hpc := rfl
@[simp] theorem HostState.setNotified_vars (b : Bool) (h : HostState) :
    (h.setNotified b).vars = h.vars := rfl
@[simp] theorem HostState.setNotified_notified (b : Bool) (h : HostState) :
    (h.setNotified b).notified = b := rfl
@[simp] theorem HostState.setNotified_handler (b : Bool) (h : HostState) :
    (h.setNotified b).handler = h.handler := rfl

@[simp] theorem State.setHost_self (s : State) : s.setHost s.host = s := rfl
@[simp] theorem State.advanceDraws_zero (s : State) : s.advanceDraws 0 = s := rfl

end Sys2Proof.Machine
end

