-- ==== Sys2Proof/Laws/Ops.lean ====
section
/-! SUPPORT. What the shared operations of Ops.lean and Operands.lean can do. -/

namespace Sys2Proof.Machine

/-! ### Bits -/

theorem getLsbD_setBit (w : Word) (i j : Nat) (b : Bool) (hi : i < 32) :
    (setBit w i b).getLsbD j = if j = i then b else w.getLsbD j := by
  unfold setBit
  by_cases hj : j = i
  · subst hj; cases b <;> simp [hi]
  · have h : (1#32 <<< i).getLsbD j = false := by
      simp only [BitVec.getLsbD_shiftLeft, BitVec.getLsbD_one]
      by_cases hlt : j < i
      · simp [hlt]
      · have : ¬ (j - i = 0) := by omega
        simp [this]
    cases b
    · simp [hj, h]
      exact BitVec.lt_of_getLsbD
    · simp [hj, h]

@[simp] theorem getLsbD_setBit_same (w : Word) (i : Nat) (b : Bool) (hi : i < 32) :
    (setBit w i b).getLsbD i = b := by
  simp [getLsbD_setBit w i i b hi]

theorem getLsbD_setBit_other (w : Word) (i j : Nat) (b : Bool) (hi : i < 32) (hj : j ≠ i) :
    (setBit w i b).getLsbD j = w.getLsbD j := by
  simp [getLsbD_setBit w i j b hi, hj]

@[simp] theorem getElem_setBit (w : Word) (i j : Nat) (b : Bool) (hi : i < 32) (hj : j < 32) :
    (setBit w i b)[j] = if j = i then b else w[j] := by
  rw [← BitVec.getLsbD_eq_getElem, getLsbD_setBit w i j b hi, BitVec.getLsbD_eq_getElem]

/-! ### Bytes on the wire -/

@[simp] theorem length_byteBits (v : Byte) : (byteBits v).length = 8 := by
  simp [byteBits]

/-- Bit i of the byte of a list of bits is the list's i-th bit. -/
theorem getLsbD_bitsByte (bs : List Bool) (i : Nat) (hi : i < 8) :
    (bitsByte bs).getLsbD i = bs.getD i false := by
  induction bs generalizing i with
  | nil => simp [bitsByte]
  | cons b bs ih =>
    cases i with
    | zero => simp [bitsByte]
    | succ k =>
      have h := ih k (by omega)
      rw [← List.getD_cons_succ (x := b)] at h
      rw [← h]
      simp [bitsByte, hi, BitVec.getLsbD_eq_getElem (show k < 8 by omega)]

/-- Eight bits make a byte whose bits they are. -/
theorem byteBits_bitsByte (bs : List Bool) (h : bs.length = 8) : byteBits (bitsByte bs) = bs := by
  apply List.ext_getElem
  · simp [h]
  · intro i h1 h2
    have hi : i < 8 := by simpa using h1
    simp [byteBits, getLsbD_bitsByte bs i hi, h2]

@[simp] theorem bitByte_getLsbD_zero (d : Word) (b : Bool) : (bitByte d b).getLsbD 0 = b := by
  unfold bitByte
  rw [BitVec.getLsbD_append]
  simp

/-! ### Read slots -/

@[simp] theorem State.length_slotBits (n : Nat) (s : State) : (s.slotBits n).length = n := by
  induction n generalizing s with
  | zero => rfl
  | succ n ih => simp [State.slotBits, ih]

/-- n read slots append the bits read, consume the answers given, and touch nothing else. -/
theorem State.afterReadSlots_eq (n : Nat) (s : State) :
    State.afterReadSlots n s =
      { s with busLog := s.busLog ++ (State.slotBits n s).map .readSlot,
               busAnswers := s.busAnswers.drop n } := by
  induction n generalizing s with
  | zero => simp [State.afterReadSlots, State.slotBits]
  | succ n ih =>
    simp only [State.afterReadSlots, State.slotBits, ih]
    simp [State.afterReadSlot, State.logEvents, State.popAnswer]

@[simp] theorem State.afterReadSlots_params (n : Nat) (s : State) :
    (State.afterReadSlots n s).params = s.params := by simp [State.afterReadSlots_eq]
@[simp] theorem State.afterReadSlots_instReg (n : Nat) (s : State) :
    (State.afterReadSlots n s).instReg = s.instReg := by simp [State.afterReadSlots_eq]
@[simp] theorem State.afterReadSlots_irqeReadyEn (n : Nat) (s : State) :
    (State.afterReadSlots n s).irqeReadyEn = s.irqeReadyEn := by simp [State.afterReadSlots_eq]
@[simp] theorem State.afterReadSlots_irqeDoneEn (n : Nat) (s : State) :
    (State.afterReadSlots n s).irqeDoneEn = s.irqeDoneEn := by simp [State.afterReadSlots_eq]
@[simp] theorem State.afterReadSlots_phase (n : Nat) (s : State) :
    (State.afterReadSlots n s).phase = s.phase := by simp [State.afterReadSlots_eq]
@[simp] theorem State.afterReadSlots_rxData (n : Nat) (s : State) :
    (State.afterReadSlots n s).rxData = s.rxData := by simp [State.afterReadSlots_eq]
@[simp] theorem State.afterReadSlots_presenceFlag (n : Nat) (s : State) :
    (State.afterReadSlots n s).presenceFlag = s.presenceFlag := by simp [State.afterReadSlots_eq]
@[simp] theorem State.afterReadSlots_fault (n : Nat) (s : State) :
    (State.afterReadSlots n s).fault = s.fault := by simp [State.afterReadSlots_eq]
@[simp] theorem State.afterReadSlots_host (n : Nat) (s : State) :
    (State.afterReadSlots n s).host = s.host := by simp [State.afterReadSlots_eq]
@[simp] theorem State.afterReadSlots_schedule (n : Nat) (s : State) :
    (State.afterReadSlots n s).schedule = s.schedule := by simp [State.afterReadSlots_eq]
@[simp] theorem State.afterReadSlots_turn (n : Nat) (s : State) :
    (State.afterReadSlots n s).turn = s.turn := by simp [State.afterReadSlots_eq]
@[simp] theorem State.afterReadSlots_draws (n : Nat) (s : State) :
    (State.afterReadSlots n s).draws = s.draws := by simp [State.afterReadSlots_eq]
@[simp] theorem State.afterReadSlots_busLog (n : Nat) (s : State) :
    (State.afterReadSlots n s).busLog = s.busLog ++ (State.slotBits n s).map .readSlot := by
  simp [State.afterReadSlots_eq]
@[simp] theorem State.afterReadSlots_busAnswers (n : Nat) (s : State) :
    (State.afterReadSlots n s).busAnswers = s.busAnswers.drop n := by simp [State.afterReadSlots_eq]

/-- The i-th bit is the pending answer at i, else what the oracle says after the slots before it. -/
theorem State.getElem_slotBits (n i : Nat) (s : State) (h : i < n) :
    (State.slotBits n s)[i]'(by simpa using h) =
      (s.busAnswers.drop i).headD
        (Config.busRead (s.busLog ++ ((State.slotBits n s).take i).map .readSlot)) := by
  induction n generalizing i s with
  | zero => omega
  | succ n ih =>
    cases i with
    | zero => simp [State.slotBits, State.readAnswer]
    | succ k =>
      simp only [State.slotBits, List.getElem_cons_succ]
      rw [ih k s.afterReadSlot (by omega)]
      simp

end Sys2Proof.Machine
end

