-- ==== Sys2Proof/Laws/WellFormed.lean ====
section
/-! SUPPORT. The constraints of 00_scope.md R9 as facts that proofs use. -/

namespace Sys2Proof

/-- R9, offsets. -/
theorem Params.wellFormed_offsets {P : Params} (h : P.wellFormed = true) :
    allDistinct P.offsets = true ∧ ∀ o ∈ P.offsets, o % 4 = 0 ∧ o < P.blockSize := by
  simp only [Params.wellFormed, Params.offsetsOk, Bool.and_eq_true, List.all_eq_true] at h
  refine ⟨h.1.1.1.1.1, fun o ho => ?_⟩
  have := h.1.1.1.1.2 o ho
  simpa using this

/-- R9, codes. -/
theorem Params.wellFormed_codes {P : Params} (h : P.wellFormed = true) :
    allDistinct P.codes = true ∧ ∀ c ∈ P.codes, c &&& 0xFF#32 = 0#32 := by
  simp only [Params.wellFormed, Params.codesOk, Bool.and_eq_true, List.all_eq_true] at h
  refine ⟨h.1.1.1.2.1, fun c hc => ?_⟩
  have := h.1.1.1.2.2 c hc
  simpa using this

/-- R9, Status. -/
theorem Params.wellFormed_stat {P : Params} (h : P.wellFormed = true) :
    P.statDone ≠ P.statReady ∧ P.statDone ≠ P.statPresence ∧ P.statReady ≠ P.statPresence ∧
      P.statDone < 32 ∧ P.statReady < 32 ∧ P.statPresence < 32 := by
  simp [Params.wellFormed, Params.statOk, allDistinct] at h
  omega

/-- R9, Control. -/
theorem Params.wellFormed_ctrl {P : Params} (h : P.wellFormed = true) :
    P.ctrlGo ≠ P.ctrlReset ∧ P.ctrlGo < 32 ∧ P.ctrlReset < 32 ∧ P.ctrlIdle = 0#32 := by
  simp [Params.wellFormed, Params.ctrlOk] at h
  tauto

/-- R9, Interrupt-Enable. -/
theorem Params.wellFormed_irqe {P : Params} (h : P.wellFormed = true) :
    P.irqeDone ≠ P.irqeReady ∧ P.irqeDone < 32 ∧ P.irqeReady < 32 := by
  simp [Params.wellFormed, Params.irqeOk] at h
  tauto

/-- The default parameters meet R9, whatever the base address. -/
theorem Params.default_wellFormed : Params.default.wellFormed = true := by decide

namespace Machine

/-- A bit of a mask. -/
theorem getLsbD_bitMask {i j : Nat} (hi : i < 32) : (bitMask i).getLsbD j = decide (j = i) := by
  unfold bitMask
  simp only [BitVec.getLsbD_shiftLeft, BitVec.getLsbD_one]
  by_cases h : j = i
  · subst h; simp [hi]
  · by_cases hlt : j < i
    · simp [h, hlt]
    · have : ¬ (j - i = 0) := by omega
      simp [h, this]

/-- At its own offset, an aligned 32-bit access names the register (R9, R22). -/
theorem accessReg_offset {P : Params} (h : P.wellFormed = true) (r : Reg) :
    accessReg P (r.offset P) 4 = .ok r := by
  obtain ⟨hd, ho⟩ := Params.wellFormed_offsets h
  have hmem : r.offset P ∈ P.offsets := by cases r <;> simp [Reg.offset, Params.offsets]
  obtain ⟨hal, hs⟩ := ho _ hmem
  have hr : regAt P (r.offset P) = some r := by
    simp [allDistinct, Params.offsets] at hd
    obtain ⟨⟨h1, h2, h3, h4, h5⟩, ⟨h6, h7, h8, h9⟩, ⟨h10, h11, h12⟩, ⟨h13, h14⟩, h15⟩ := hd
    cases r <;> simp [regAt, Reg.offset, Ne.symm h1, Ne.symm h2, Ne.symm h3, Ne.symm h4, Ne.symm h5,
      Ne.symm h6, Ne.symm h7, Ne.symm h8, Ne.symm h9, Ne.symm h10, Ne.symm h11, Ne.symm h12,
      Ne.symm h13, Ne.symm h14, Ne.symm h15]
  simp [accessReg, hal, hs, hr]

/-- A read at a register's offset reads it. -/
theorem portRead_offset {s : State} (h : s.params.wellFormed = true) (r : Reg) :
    portRead (r.offset s.params) 4 s = .ok (readReg r s) := by
  simp [portRead, accessReg_offset h]

/-- A write at a register's offset writes it. -/
theorem portWrite_offset {s : State} (h : s.params.wellFormed = true) (r : Reg) (v : Word) :
    portWrite (r.offset s.params) 4 v s = writeReg r v s := by
  simp [portWrite, accessReg_offset h]

/-- A word sets no bit outside two places exactly when each of its other bits is 0. -/
theorem and_not_masks_eq_zero {i j : Nat} (hi : i < 32) (hj : j < 32) (v : Word) :
    v &&& ~~~(bitMask i ||| bitMask j) = 0#32 ↔ ∀ k, k ≠ i → k ≠ j → v.getLsbD k = false := by
  constructor
  · intro h k h1 h2
    by_cases hk : k < 32
    · have := congrArg (fun w => w.getLsbD k) h
      simp only [BitVec.getLsbD_and, BitVec.getLsbD_not, BitVec.getLsbD_or, getLsbD_bitMask hi,
        getLsbD_bitMask hj] at this
      simpa [h1, h2, hk] using this
    · exact BitVec.getLsbD_of_ge _ _ (by omega)
  · intro h
    apply BitVec.eq_of_getLsbD_eq
    intro k hk
    simp only [BitVec.getLsbD_and, BitVec.getLsbD_not, BitVec.getLsbD_or, getLsbD_bitMask hi,
      getLsbD_bitMask hj]
    by_cases h1 : k = i
    · simp [h1]
    by_cases h2 : k = j
    · simp [h2]
    simp [h k h1 h2]

/-- The CTRL word with GO alone is the Go write. -/
theorem writeCtrl_go {s : State} (h : s.params.wellFormed = true) :
    writeCtrl (bitMask s.params.ctrlGo) s = writeGo s := by
  obtain ⟨hne, hg, hr, -⟩ := Params.wellFormed_ctrl h
  unfold writeCtrl
  rw [if_neg]
  · simp [getLsbD_bitMask hg, Ne.symm hne]
  · rw [ne_eq, not_not, ctrlMask, and_not_masks_eq_zero hg hr]
    intro k h1 _
    simp [getLsbD_bitMask hg, h1]

/-- The CTRL word with RESET alone is the soft reset. -/
theorem writeCtrl_reset {s : State} (h : s.params.wellFormed = true) :
    writeCtrl (bitMask s.params.ctrlReset) s = .ok (writeSoftReset s) := by
  obtain ⟨hne, hg, hr, -⟩ := Params.wellFormed_ctrl h
  unfold writeCtrl
  rw [if_neg]
  · simp [getLsbD_bitMask hr, hne]
  · rw [ne_eq, not_not, ctrlMask, and_not_masks_eq_zero hg hr]
    intro k _ h2
    simp [getLsbD_bitMask hr, h2]

/-- The idle value of CTRL is ClearGo. -/
theorem writeCtrl_idle {s : State} (h : s.params.wellFormed = true) :
    writeCtrl s.params.ctrlIdle s = writeClearGo s := by
  obtain ⟨-, -, -, hz⟩ := Params.wellFormed_ctrl h
  rw [hz]
  unfold writeCtrl
  rw [if_neg (by simp)]
  simp

end Machine

end Sys2Proof
end

