-- ==== Sys2Proof/Laws/Flags.lean ====
section
/-! SUPPORT. The bits of the Status word and of the Data word, said once. -/

namespace Sys2Proof.Machine

/-! ### What the flags are in each phase -/

@[simp] theorem Phase.ready_idle : (Phase.idle).ready = true := rfl
@[simp] theorem Phase.ready_busy (op : Instr) : (Phase.busy op).ready = false := rfl
@[simp] theorem Phase.ready_done (op : Instr) : (Phase.done op).ready = false := rfl
@[simp] theorem Phase.ready_recover : (Phase.recover).ready = false := rfl
@[simp] theorem Phase.ready_resetHeld : (Phase.resetHeld).ready = false := rfl
@[simp] theorem Phase.isDone_idle : (Phase.idle).isDone = false := rfl
@[simp] theorem Phase.isDone_busy (op : Instr) : (Phase.busy op).isDone = false := rfl
@[simp] theorem Phase.isDone_done (op : Instr) : (Phase.done op).isDone = true := rfl
@[simp] theorem Phase.isDone_recover : (Phase.recover).isDone = false := rfl
@[simp] theorem Phase.isDone_resetHeld : (Phase.resetHeld).isDone = false := rfl
@[simp] theorem Phase.engineEnabled_idle : (Phase.idle).engineEnabled = false := rfl
@[simp] theorem Phase.engineEnabled_busy (op : Instr) : (Phase.busy op).engineEnabled = true := rfl
@[simp] theorem Phase.engineEnabled_done (op : Instr) : (Phase.done op).engineEnabled = false := rfl
@[simp] theorem Phase.engineEnabled_recover : (Phase.recover).engineEnabled = true := rfl
@[simp] theorem Phase.engineEnabled_resetHeld : (Phase.resetHeld).engineEnabled = false := rfl
@[simp] theorem Phase.op_idle : (Phase.idle).op = none := rfl
@[simp] theorem Phase.op_busy (op : Instr) : (Phase.busy op).op = some op := rfl
@[simp] theorem Phase.op_done (op : Instr) : (Phase.done op).op = some op := rfl
@[simp] theorem Phase.op_recover : (Phase.recover).op = none := rfl
@[simp] theorem Phase.op_resetHeld : (Phase.resetHeld).op = none := rfl

/-! ### The words read -/

/-- Every bit of the word a STAT read gives. -/
theorem statWord_bits {s : State} (h : s.params.wellFormed = true) (d : Word) (i : Nat) :
    (statWord s d).getLsbD i =
      if i = s.params.statReady then s.phase.ready
      else if i = s.params.statDone then s.phase.isDone
      else if i = s.params.statPresence ∧ s.phase = .done .owReset then s.presenceFlag
      else d.getLsbD i := by
  obtain ⟨h1, h2, h3, h4, h5, h6⟩ := Params.wellFormed_stat h
  have flags : (setBit (setBit d s.params.statReady s.phase.ready) s.params.statDone
      s.phase.isDone).getLsbD i =
      if i = s.params.statReady then s.phase.ready
      else if i = s.params.statDone then s.phase.isDone else d.getLsbD i := by
    rw [getLsbD_setBit _ _ _ _ h4, getLsbD_setBit _ _ _ _ h5]
    by_cases hd : i = s.params.statDone
    · simp [hd, h1]
    · simp [hd]
  by_cases hp : s.phase = .done .owReset
  · have hw : statWord s d = setBit (setBit (setBit d s.params.statReady s.phase.ready)
        s.params.statDone s.phase.isDone) s.params.statPresence s.presenceFlag := by
      simp [statWord, hp]
    rw [hw, getLsbD_setBit _ _ _ _ h6, flags]
    by_cases hi : i = s.params.statPresence
    · simp [hi, hp, Ne.symm h2, Ne.symm h3]
    · simp [hi]
  · have hw : statWord s d = setBit (setBit d s.params.statReady s.phase.ready)
        s.params.statDone s.phase.isDone := by
      unfold statWord
      split
      · contradiction
      · rfl
    rw [hw, flags]
    simp [hp]

/-- A DATA read of a bit result. -/
theorem dataWord_readBit {s : State} (h : s.phase = .done .owRdbit) (d : Word) :
    dataWord s d = setBit d 0 (s.rxData.getLsbD 0) := by
  simp [dataWord, h]

/-- A DATA read of a byte result. -/
theorem dataWord_readByte {s : State} (h : s.phase = .done .owRdbyte) (d : Word) :
    dataWord s d = d.extractLsb' 8 24 ++ s.rxData := by
  simp [dataWord, h]

/-- The low byte of a word with a byte below. -/
@[simp] theorem low_byte_append (a : BitVec 24) (b : Byte) : (a ++ b : Word).extractLsb' 0 8 = b := by
  apply BitVec.eq_of_getLsbD_eq
  intro i hi
  rw [BitVec.getLsbD_extractLsb', Nat.zero_add, BitVec.getLsbD_append]
  simp [hi]

/-- A DATA read without a result. -/
theorem dataWord_none {s : State} (h : s.phase ≠ .done .owRdbit) (h' : s.phase ≠ .done .owRdbyte)
    (d : Word) : dataWord s d = d := by
  unfold dataWord
  split <;> first | contradiction | rfl

end Sys2Proof.Machine
end

