-- ==== Sys2Proof/Laws/HostProtocol.lean ====
section
/-! SUPPORT. How host code is put together: segments after segments, and the polling form of the handshake is PRIM as
30_encoding.md R90 expands it. -/

namespace Sys2Proof.Machine

@[simp] theorem assemble_nil (start : Nat) : assemble start [] = [] := rfl

@[simp] theorem assemble_cons (start : Nat) (g : Segment) (gs : List Segment) :
    assemble start (g :: gs) = g start ++ assemble (start + (g start).length) gs := rfl

/-- Segments put together in two parts. -/
theorem assemble_append (start : Nat) (gs hs : List Segment) :
    assemble start (gs ++ hs) =
      assemble start gs ++ assemble (start + (assemble start gs).length) hs := by
  induction gs generalizing start with
  | nil => simp
  | cons g gs ih => simp [ih, Nat.add_assoc]

/-- Polling, the five steps are PRIM, wherever they stand. -/
theorem assemble_primSegments_polling (P : Params) (timeout start : Nat) (op : Instr) (x : Fin 16) :
    assemble start (primSegments P .polling timeout op x) = prim P op x := by
  simp [primSegments, prim, Wait.segment, Segment.fixed]

/-- Polling, one operation ends with HALT right after PRIM. -/
theorem operationProgram_polling (P : Params) (op : Instr) (x : Fin 16) :
    (operationProgram P .polling op x).code =
      prim P op x ++ [.halt, .halt] ++ softResetSequence P ++ [.halt] := by
  simp [operationProgram, withEnds, assemble_primSegments_polling]

/-- One step of the printed lines, where the machine goes on. -/
theorem HostProgram.lines_succ {p : HostProgram} {res : Byte} {n : Nat} {s t : State} (h : step s = .next t) :
    p.lines res (n + 1) s = (p.lineAt res s).toList ++ p.lines res n t := by
  simp [HostProgram.lines, h]

/-- No line is printed by an Engine's or a handler's move. -/
theorem HostProgram.lineAt_of_not_host {p : HostProgram} {res : Byte} {s : State} (h : s.nextMove ≠ .host) :
    p.lineAt res s = none := by
  simp [HostProgram.lineAt, h]

end Sys2Proof.Machine
end

