-- ==== Sys2Proof/Laws/PerInstr.lean ====
section
/-! SUPPORT. Per instruction: the operand stays in the low byte of the instruction word, so the word with its low byte
masked off is the operation's code (30_encoding.md R81, R82). -/

namespace Sys2Proof.Laws.Encoding

/-- The encoded word without its operand byte is the instruction's code, for every choice of codes. -/
def Statement (i : Instr) : Prop :=
  i.wellFormed = true ∧
    ∀ P : Params, P.codesOk = true → encode P i &&& ~~~0xFF#32 = i.code P

/-- OW.RESET has no operand. -/
theorem owReset : Statement .owReset :=
  ⟨rfl, fun _ h => by simpa [encode, Instr.operand] using strip_code (code_low_byte_clear h .owReset)⟩

/-- OW.RDBIT has no operand. -/
theorem owRdbit : Statement .owRdbit :=
  ⟨rfl, fun _ h => by simpa [encode, Instr.operand] using strip_code (code_low_byte_clear h .owRdbit)⟩

/-- OW.RDBYTE has no operand. -/
theorem owRdbyte : Statement .owRdbyte :=
  ⟨rfl, fun _ h => by simpa [encode, Instr.operand] using strip_code (code_low_byte_clear h .owRdbyte)⟩

/-- OW.WRBIT: the bit lands in bit 0. -/
theorem owWrbit (b : Bool) : Statement (.owWrbit b) :=
  ⟨rfl, fun _ h => (strip_bitOperand b (code_low_byte_clear h (.owWrbit b))).2⟩

/-- OW.WRBYTE: the byte lands in bits 7:0. -/
theorem owWrbyte (d : Byte) : Statement (.owWrbyte d) :=
  ⟨rfl, fun _ h => strip_byteOperand d (code_low_byte_clear h (.owWrbyte d))⟩

end Sys2Proof.Laws.Encoding
end

