-- ==== Sys2Proof/Laws/Registers.lean ====
section
/-! SUPPORT. What a register access can do, said once per operation of Registers.lean. -/

namespace Sys2Proof.Machine

/-! ### Which register an access names -/

theorem accessReg_ok {P : Params} {off bytes : Nat} {r : Reg} :
    accessReg P off bytes = .ok r ↔
      bytes = 4 ∧ off % 4 = 0 ∧ off < P.blockSize ∧ regAt P off = some r := by
  unfold accessReg
  split
  · rename_i h
    cases hr : regAt P off <;> simp [h]
  · rename_i h
    simp only [reduceCtorEq, false_iff]
    rintro ⟨h1, h2, h3, -⟩
    exact h ⟨h1, h2, h3⟩

/-- The only fault of an access that names no register is BadAccess. -/
theorem accessReg_error {P : Params} {off bytes : Nat} {f : Fault}
    (h : accessReg P off bytes = .error f) : f = .badAccess := by
  unfold accessReg at h
  split at h
  · cases hr : regAt P off <;> simp_all
  · simpa using h.symm

theorem offsetOf_error {P : Params} {addr : Nat} {f : Fault} (h : offsetOf P addr = .error f) :
    f = .badAccess := by
  unfold offsetOf at h
  split at h
  · cases h
  · simpa using h.symm

/-! ### Reads -/

/-- A read leaves the state as it was, but for at most one word drawn. -/
theorem readReg_state (r : Reg) (s : State) :
    (readReg r s).2 = s ∨ (readReg r s).2 = s.advanceDraws 1 := by
  cases r <;> simp [readReg]

/-- What a port read that succeeds gives. -/
theorem portRead_ok {off bytes : Nat} {s t : State} {v : Word} (h : portRead off bytes s = .ok (v, t)) :
    ∃ r, accessReg s.params off bytes = .ok r ∧ (v, t) = readReg r s := by
  unfold portRead at h
  cases hr : accessReg s.params off bytes with
  | error f => simp [hr] at h
  | ok r => exact ⟨r, rfl, by simpa [hr] using h.symm⟩

/-! ### Writes -/

theorem writeInst_ok {v : Word} {s t : State} :
    writeInst v s = .ok t ↔ s.phase = .idle ∧ t = s.setInst v := by
  unfold writeInst
  cases hp : s.phase <;> simp [eq_comm]

theorem writeGo_ok {s t : State} :
    writeGo s = .ok t ↔
      s.phase = .idle ∧ ∃ op, dec s.params s.instReg = some op ∧ t = s.setPhase (.busy op) := by
  unfold writeGo
  cases hp : s.phase <;> simp
  cases hd : dec s.params s.instReg <;> simp [eq_comm]

theorem writeClearGo_ok {s t : State} :
    writeClearGo s = .ok t ↔
      (s.phase = .idle ∨ s.phase = .recover) ∧ t = s ∨
      ((∃ op, s.phase = .done op) ∨ s.phase = .resetHeld) ∧ t = s.setPhase .recover := by
  unfold writeClearGo
  cases hp : s.phase <;> simp [eq_comm]

/-- A soft reset does nothing in RESET_HELD; elsewhere it enters it, dropping the results. -/
theorem writeSoftReset_cases (s : State) :
    s.phase = .resetHeld ∧ writeSoftReset s = s ∨
    s.phase ≠ .resetHeld ∧
      ((∃ op, s.phase = .busy op) ∧
        writeSoftReset s = (s.logEvents [.aborted]).dropResults.setPhase .resetHeld ∨
      (∀ op, s.phase ≠ .busy op) ∧ writeSoftReset s = s.dropResults.setPhase .resetHeld) := by
  unfold writeSoftReset
  cases hp : s.phase <;> simp

/-- What a CTRL write that succeeds was. -/
theorem writeCtrl_ok {v : Word} {s t : State} (h : writeCtrl v s = .ok t) :
    writeGo s = .ok t ∨ writeClearGo s = .ok t ∨ t = writeSoftReset s := by
  unfold writeCtrl at h
  split at h
  · cases h
  · split at h
    · exact .inl h
    · exact .inr (.inl h)
    · exact .inr (.inr (by simpa using h.symm))
    · cases h

theorem writeIrqe_ok {v : Word} {s t : State} :
    writeIrqe v s = .ok t ↔ v &&& ~~~irqeMask s.params = 0#32 ∧
      t = s.setEnables (v.getLsbD s.params.irqeReady) (v.getLsbD s.params.irqeDone) := by
  unfold writeIrqe
  by_cases h : v &&& ~~~irqeMask s.params = 0#32 <;> simp [h, eq_comm]

/-- The six things a register write that succeeds can have done to the block. -/
inductive WriteEffect (s : State) : State → Prop where
  /-- R103 -/
  | inst (v : Word) (h : s.phase = .idle) : WriteEffect s (s.setInst v)
  /-- R105 -/
  | go (op : Instr) (h : s.phase = .idle) (hd : dec s.params s.instReg = some op) :
      WriteEffect s (s.setPhase (.busy op))
  /-- R107, the phases where it changes nothing, and R108 in RESET_HELD -/
  | none : WriteEffect s s
  /-- R107 from DONE and RESET_HELD -/
  | clear (h : (∃ op, s.phase = .done op) ∨ s.phase = .resetHeld) : WriteEffect s (s.setPhase .recover)
  /-- R108 outside BUSY -/
  | reset (h : ∀ op, s.phase ≠ .busy op) : WriteEffect s (s.dropResults.setPhase .resetHeld)
  /-- R108 in BUSY -/
  | abort (op : Instr) (h : s.phase = .busy op) :
      WriteEffect s ((s.logEvents [.aborted]).dropResults.setPhase .resetHeld)
  /-- R27 -/
  | irqe (r d : Bool) : WriteEffect s (s.setEnables r d)

theorem writeReg_ok {r : Reg} {v : Word} {s t : State} (h : writeReg r v s = .ok t) :
    WriteEffect s t := by
  cases r with
  | inst =>
    obtain ⟨hp, rfl⟩ := writeInst_ok.mp h
    exact .inst v hp
  | ctrl =>
    rcases writeCtrl_ok h with h | h | rfl
    · obtain ⟨hp, op, hd, rfl⟩ := writeGo_ok.mp h
      exact .go op hp hd
    · rcases writeClearGo_ok.mp h with ⟨-, rfl⟩ | ⟨hp, rfl⟩
      · exact .none
      · exact .clear hp
    · rcases writeSoftReset_cases s with ⟨-, h⟩ | ⟨-, ⟨⟨op, hp⟩, h⟩ | ⟨hp, h⟩⟩
      · rw [h]; exact .none
      · rw [h]; exact .abort op hp
      · rw [h]; exact .reset hp
  | irqe =>
    obtain ⟨-, rfl⟩ := writeIrqe_ok.mp h
    exact .irqe _ _
  | stat => cases h
  | data => cases h
  | id => cases h

theorem portWrite_ok {off bytes : Nat} {v : Word} {s t : State} (h : portWrite off bytes v s = .ok t) :
    WriteEffect s t := by
  unfold portWrite at h
  cases hr : accessReg s.params off bytes with
  | error f => simp [hr] at h
  | ok r => exact writeReg_ok (r := r) (v := v) (by simpa [hr] using h)

theorem memWrite_ok {addr bytes : Nat} {v : Word} {s t : State} (h : memWrite addr bytes v s = .ok t) :
    WriteEffect s t := by
  unfold memWrite at h
  cases ho : offsetOf s.params addr with
  | error f => simp [ho] at h
  | ok off => exact portWrite_ok (by simpa [ho] using h)

/-- A read that succeeds, by offset or by address, draws at most one word and changes nothing else. -/
theorem portRead_state {off bytes : Nat} {s t : State} {v : Word} (h : portRead off bytes s = .ok (v, t)) :
    t = s ∨ t = s.advanceDraws 1 := by
  obtain ⟨r, -, h⟩ := portRead_ok h
  have := readReg_state r s
  rwa [← h] at this

theorem memRead_state {addr bytes : Nat} {s t : State} {v : Word} (h : memRead addr bytes s = .ok (v, t)) :
    t = s ∨ t = s.advanceDraws 1 := by
  unfold memRead at h
  cases ho : offsetOf s.params addr with
  | error f => simp [ho] at h
  | ok off => exact portRead_state (by simpa [ho] using h)

/-- No write changes the parameters, the fault record, the Host, the inputs or the turn. -/
theorem WriteEffect.frame {s t : State} (h : WriteEffect s t) :
    t.params = s.params ∧ t.fault = s.fault ∧ t.host = s.host ∧ t.schedule = s.schedule ∧
      t.turn = s.turn ∧ t.busAnswers = s.busAnswers := by
  cases h <;> simp

/-- A write appends to the bus log at most the event that an operation was cut off. -/
theorem WriteEffect.busLog {s t : State} (h : WriteEffect s t) :
    t.busLog = s.busLog ∨ t.busLog = s.busLog ++ [.aborted] := by
  cases h <;> simp

end Sys2Proof.Machine
end

