-- ==== Sys2Proof/Laws/Step.lean ====
section
/-! SUPPORT. What a move of an agent can do: one inversion lemma for a host statement, for each agent's move, and
for a step. -/

namespace Sys2Proof.Machine

/-- What a host statement that does not fault leaves of the block: nothing changed, a word drawn by a read,
or the effect of one register write. -/
inductive StmtEffect (s : State) : State → Prop where
  /-- The block is as it was. -/
  | still : StmtEffect s s
  /-- One read. -/
  | read : StmtEffect s (s.advanceDraws 1)
  /-- One write. -/
  | write {u : State} (h : WriteEffect s u) : StmtEffect s u

theorem StmtEffect.ofRead {s t : State} (h : t = s ∨ t = s.advanceDraws 1) : StmtEffect s t := by
  rcases h with rfl | rfl
  · exact .still
  · exact .read

/-- A host statement changes the block by at most one access, and besides only the Host's own state. -/
theorem hostStmt_ok {st : HostStmt} {s t : State} (h : hostStmt st s = .ok t) :
    ∃ u hs, StmtEffect s u ∧ t = u.setHost hs := by
  have store : ∀ {a : Except Fault State} (_ : ∀ u, a = .ok u → WriteEffect s u)
      (_ : hostStore a = .ok t), ∃ u hs, StmtEffect s u ∧ t = u.setHost hs := by
    intro a ha h
    cases a with
    | error f => cases h
    | ok u => exact ⟨u, _, .write (ha u rfl), by simpa [hostStore, State.hostAdvance, eq_comm] using h⟩
  have load : ∀ {x : Fin 16} {a : Except Fault (Word × State)}
      (_ : ∀ v u, a = .ok (v, u) → u = s ∨ u = s.advanceDraws 1)
      (_ : hostLoad x a = .ok t), ∃ u hs, StmtEffect s u ∧ t = u.setHost hs := by
    intro x a ha h
    cases a with
    | error f => cases h
    | ok p => exact ⟨p.2, _, .ofRead (ha p.1 p.2 rfl), by simpa [hostLoad, State.hostAssign, eq_comm] using h⟩
  have branch : ∀ {x : Fin 16} {test : Word → Bool} {l : Nat} (_ : hostBranch x test l s = .ok t),
      ∃ u hs, StmtEffect s u ∧ t = u.setHost hs := by
    intro x test l h
    unfold hostBranch at h
    cases hr : s.host.readVar x with
    | error e => simp [hr] at h
    | ok v =>
      simp only [hr, Except.ok.injEq] at h
      by_cases hv : test v = true
      · exact ⟨s, _, .still, by simpa [hv, eq_comm] using h⟩
      · exact ⟨s, _, .still, by simpa [hv, eq_comm, State.hostAdvance] using h⟩
  have compute : ∀ {x m : Fin 16} {f : Word → Word} (_ : hostCompute x m f s = .ok t),
      ∃ u hs, StmtEffect s u ∧ t = u.setHost hs := by
    intro x m f h
    unfold hostCompute at h
    cases hr : s.host.readVar m with
    | error e => simp [hr] at h
    | ok v => exact ⟨s, _, .still, by simpa [hr, eq_comm, State.hostAssign] using h⟩
  cases st with
  | wr off imm => exact store (fun u hu => portWrite_ok hu) h
  | rd x off => exact load (fun v u hu => portRead_state hu) h
  | poll off bit v =>
    simp only [hostStmt, hostPoll] at h
    cases hr : portRead off 4 s with
    | error f => simp [hr] at h
    | ok p =>
      obtain ⟨w, u⟩ := p
      have hu := StmtEffect.ofRead (portRead_state hr)
      simp only [hr, Except.ok.injEq] at h
      by_cases hv : w.getLsbD bit = v
      · exact ⟨u, _, hu, by simpa [hv, eq_comm, State.hostAdvance] using h⟩
      · exact ⟨u, u.host, hu, by simpa [hv, eq_comm] using h⟩
  | andi x m imm => exact compute h
  | addi x m imm => exact compute h
  | li x imm => exact ⟨s, _, .still, by simpa [hostStmt, eq_comm, State.hostAssign] using h⟩
  | beqi x imm l => exact branch h
  | bnei x imm l => exact branch h
  | j l => exact ⟨s, _, .still, by simpa [hostStmt, eq_comm] using h⟩
  | halt => exact ⟨s, s.host, .still, by simpa [hostStmt, eq_comm] using h⟩
  | memRead x addr bytes => exact load (fun v u hu => memRead_state hu) h
  | memWrite addr bytes v => exact store (fun u hu => memWrite_ok hu) h
  | suspend =>
    simp only [hostStmt, Except.ok.injEq] at h
    by_cases hn : s.host.notified = true
    · exact ⟨s, _, .still, by simpa [hn, eq_comm, State.hostAdvance] using h⟩
    · exact ⟨s, s.host, .still, by simpa [hn, eq_comm] using h⟩
  | clearNotified => exact ⟨s, _, .still, by simpa [hostStmt, eq_comm] using h⟩

/-- The Host's move: a statement that runs, or a fault recorded. -/
theorem hostMove_cases (s : State) :
    (∃ u hs, StmtEffect s u ∧ hostMove s = u.setHost hs) ∨ (∃ f, hostMove s = s.raise f) := by
  unfold hostMove
  cases hc : s.host.current with
  | none => exact .inl ⟨s, s.host, .still, rfl⟩
  | some st =>
    cases hs : hostStmt st s with
    | ok t =>
      obtain ⟨u, h, hu, rfl⟩ := hostStmt_ok hs
      exact .inl ⟨u, h, hu, by simp [hs]⟩
    | error f => exact .inr ⟨f, by simp [hs]⟩

/-- Where the Host stands at HALT, it no longer runs. -/
theorem HostState.running_halt {h : HostState} (hc : h.current = some .halt) : h.running = false := by
  simp [HostState.running, hc]

/-- At HALT the Host's own move changes nothing. -/
theorem hostMove_halt {s : State} (h : s.host.current = some .halt) : hostMove s = s := by
  simp [hostMove, h, hostStmt]

/-- Where the Host does not run, its handler does not either. -/
theorem handlerMove_of_not_running {s : State} (h : s.host.running = false) : handlerMove s = s := by
  simp [handlerMove, h]

/-- The handler's move: nothing, or both enables cleared and the notification set. -/
theorem handlerMove_cases (s : State) :
    handlerMove s = s ∨
      (s.host.running = true ∧ s.host.handler = true ∧ s.irq = true ∧
        handlerMove s = (s.setEnables false false).setHost (s.host.setNotified true)) := by
  unfold handlerMove
  by_cases h : (s.host.running && s.host.handler && s.irq) = true
  · right; simp at h; simp [h]
  · left; simp [h]

/-- Everything one step can do. -/
theorem step_cases {s t : State} (h : step s = .next t) :
    s.fault = none ∧
      ((s.nextMove = .host ∧
          ((∃ u hs, StmtEffect s.popMove u ∧ t = u.setHost hs) ∨ ∃ f, t = s.popMove.raise f)) ∨
       (s.nextMove = .handler ∧ (t = s.popMove ∨
          t = (s.popMove.setEnables false false).setHost (s.host.setNotified true))) ∨
       (s.nextMove = .engine ∧
          ((∃ op, s.phase = .busy op ∧ exec op s.popMove = .next t) ∨
           (s.phase = .recover ∧ t = s.popMove.setPhase .idle) ∨
           (s.phase.engineEnabled = false ∧ t = s.popMove)))) := by
  unfold step at h
  cases hf : s.fault with
  | some f => simp [hf] at h
  | none =>
    refine ⟨rfl, ?_⟩
    simp only [hf] at h
    cases hm : s.nextMove with
    | host =>
      simp only [hm, Host.Outcome.next.injEq] at h
      subst h
      refine .inl ⟨rfl, ?_⟩
      rcases hostMove_cases s.popMove with ⟨u, hs, hu, he⟩ | ⟨f, he⟩
      · exact .inl ⟨u, hs, hu, he⟩
      · exact .inr ⟨f, he⟩
    | handler =>
      simp only [hm, Host.Outcome.next.injEq] at h
      subst h
      refine .inr (.inl ⟨rfl, ?_⟩)
      rcases handlerMove_cases s.popMove with he | ⟨-, -, -, he⟩
      · exact .inl he
      · exact .inr he
    | engine =>
      simp only [hm] at h
      refine .inr (.inr ⟨rfl, ?_⟩)
      unfold engineMove at h
      cases hp : s.phase <;> simp [hp, Phase.engineEnabled] at h ⊢ <;>
        first | exact h | exact h.symm

end Sys2Proof.Machine
end

