-- ==== Sys2Proof/Tests/Slice0.lean ====
section
/-! SUPPORT. Tests with results taken from the spec's tables and vectors (30_encoding.md, 95_test_vectors.md), smoke tests of the
well-formedness checks, and a named witness for the hypotheses of every statement that has some. -/

namespace Sys2Proof.Tests

open Machine

/-! ### Small states -/

/-- The default parameters with a base address. -/
def demoParams : Params :=
  { Params.default with base := 0x40000000 }

/-- The same with the other presence polarity. -/
def presentParams : Params :=
  { demoParams with presenceSetMeansAbsent := false }

/-- A block in IDLE with known latches, an empty log and an empty host program. -/
def demo : State where
  params := demoParams
  instReg := 0x00000800#32
  irqeReadyEn := false
  irqeDoneEn := false
  phase := .idle
  rxData := 0#8
  presenceFlag := false
  fault := none
  busLog := []
  busAnswers := []
  host := HostState.initial
  schedule := []
  turn := 0
  draws := 0

/-- `demo` in another phase. -/
def demoIn (p : Phase) : State :=
  { demo with phase := p }

/-- `demo` in a phase with one coming move. -/
def demoMove (p : Phase) (m : Move) : State :=
  { demo with phase := p, schedule := [m] }

/-- `demo` in a phase, about to run one host statement. -/
def demoHost (p : Phase) (st : HostStmt) : State :=
  { demoMove p .host with host := { HostState.initial with prog := [st] } }

/-- `demo` with bus answers. -/
def demoBus (answers : List Bool) : State :=
  { demo with busAnswers := answers }

/-- The state an outcome holds, if it is a next state. -/
def stateOf : Host.Outcome State Fault Refusal → Option State
  | .next s => some s
  | .fault _ => none
  | .refused _ => none

/-- The fault an outcome holds, if it is one. -/
def faultOf : Host.Outcome State Fault Refusal → Option Fault
  | .next _ => none
  | .fault f => some f
  | .refused _ => none

/-- The phase after a write, or the fault it raises. -/
def phaseAfter (r : Except Fault State) : Except Fault Phase :=
  r.map State.phase

/-- The logged events after an outcome. -/
def logOf (o : Host.Outcome State Fault Refusal) : Option (List BusEvent) :=
  (stateOf o).map State.busLog

/-! ### Decoding: words written out from the format table of 30_encoding.md R81 and vectors L2-E -/

theorem test_decode_reset : dec demoParams 0b00000000000000000000100000000000#32 = some .owReset := by decide

theorem test_decode_rdbit : dec demoParams 0b00000000000000000000110000000000#32 = some .owRdbit := by decide

theorem test_decode_rdbyte : dec demoParams 0b00000000000000000000110100000000#32 = some .owRdbyte := by decide

theorem test_decode_wrbit :
    dec demoParams 0b00000000000000000000111000000000#32 = some (.owWrbit false) ∧
    dec demoParams 0b00000000000000000000111000000001#32 = some (.owWrbit true) := by decide

theorem test_decode_wrbyte :
    dec demoParams 0b00000000000000000000111111001100#32 = some (.owWrbyte 0xCC#8) ∧
    dec demoParams 0b00000000000000000000111100000001#32 = some (.owWrbyte 0x01#8) := by decide

/-- Reserved words of R85, with the name each is rejected under. -/
theorem test_decode_reserved :
    decode demoParams 0x00000801#32 = .error .operandBits ∧
    decode demoParams 0x00000E02#32 = .error .operandBits ∧
    decode demoParams 0x00000900#32 = .error .noSuchCode ∧
    decode demoParams 0x00001800#32 = .error .noSuchCode ∧
    decode demoParams 0x00000000#32 = .error .noSuchCode := by decide

theorem test_decode_wrong_length : decodeBytes demoParams [0x00#8, 0x08#8] = .error .wrongLength := by decide

/-- The table's rows, numbered as the table numbers them. -/
theorem test_decode_table_words :
    decodeTableWord 32 0x800 = some .owReset ∧ decodeTableWord 32 0xC00 = some .owRdbit ∧
    decodeTableWord 32 0xD00 = some .owRdbyte ∧ decodeTableWord 32 0xE01 = some (.owWrbit true) ∧
    decodeTableWord 32 0xFA5 = some (.owWrbyte 0xA5#8) ∧ decodeTableWord 32 0xA00 = none := by decide

/-- R82's worked example and L2-P2's words. -/
theorem test_encode_words :
    encode demoParams (.owWrbyte 0xCC#8) = 0x00000FCC#32 ∧ encode demoParams (.owWrbyte 0xF6#8) = 0x00000FF6#32 ∧
    encode demoParams (.owWrbit true) = 0x00000E01#32 := by decide

/-! ### WellFormed: an ill-formed term for each check -/

theorem test_default_parameters_are_well_formed : Params.default.wellFormed = true := by decide

theorem test_offset_twice : ({ demoParams with offCtrl := 0x00 } : Params).wellFormed = false := by decide

theorem test_offset_misaligned : ({ demoParams with offCtrl := 0x06 } : Params).wellFormed = false := by decide

theorem test_offset_outside : ({ demoParams with offId := 0x20 } : Params).wellFormed = false := by decide

theorem test_code_twice : ({ demoParams with opReset := 0xC00#32 } : Params).wellFormed = false := by decide

theorem test_code_low_bits : ({ demoParams with opReset := 0x801#32 } : Params).wellFormed = false := by decide

theorem test_stat_bit_twice : ({ demoParams with statDone := 4 } : Params).wellFormed = false := by decide

theorem test_stat_bit_outside : ({ demoParams with statPresence := 32 } : Params).wellFormed = false := by decide

theorem test_ctrl_bit_twice : ({ demoParams with ctrlGo := 31 } : Params).wellFormed = false := by decide

theorem test_ctrl_bit_outside :
    ({ demoParams with ctrlGo := 32 } : Params).wellFormed = false ∧
    ({ demoParams with ctrlReset := 32 } : Params).wellFormed = false := by decide

theorem test_ctrl_idle_has_go : ({ demoParams with ctrlIdle := 1#32 } : Params).wellFormed = false := by decide

theorem test_irqe_bit_twice : ({ demoParams with irqeDone := 4 } : Params).wellFormed = false := by decide

theorem test_irqe_bit_outside :
    ({ demoParams with irqeDone := 32 } : Params).wellFormed = false ∧
    ({ demoParams with irqeReady := 32 } : Params).wellFormed = false := by decide

theorem test_host_statement_ill_formed :
    HostStmt.wellFormed 3 (.poll 0x0C 32 true) = false ∧ HostStmt.wellFormed 3 (.beqi 1 0#32 3) = false ∧
    HostStmt.wellFormed 3 (.bnei 1 0#32 3) = false ∧ HostStmt.wellFormed 3 (.j 3) = false := by decide

theorem test_host_program_ill_formed : programWellFormed [.halt, .j 2] = false := by decide

theorem test_host_programs_well_formed :
    programWellFormed (bootProgram demoParams) = true ∧
    programWellFormed (configureProgram demoParams .polling ⟨75#8, 70#8, 12#8⟩).code = true ∧
    programWellFormed (readCycleProgram demoParams (.blocking 14)).code = true ∧
    programWellFormed (readLoopProgram demoParams (.bounded 100#32 14 15)).code = true := by decide +kernel

/-! ### The five bus operations (95_test_vectors.md L2-B) -/

/-- L2-B1, L2-B2: the flag has the source's polarity. -/
theorem test_reset_presence :
    (stateOf (exec .owReset (demoBus [true]))).map (fun t => (t.presenceFlag, t.busLog)) =
      some (false, [.resetPulse true]) ∧
    (stateOf (exec .owReset (demoBus [false]))).map (fun t => (t.presenceFlag, t.busLog)) =
      some (true, [.resetPulse false]) := by decide

/-- L2-B3: the other polarity. -/
theorem test_reset_other_polarity :
    (stateOf (exec .owReset { demoBus [true] with params := presentParams })).map State.presenceFlag =
      some true := by decide

/-- L2-B4, L2-B5. -/
theorem test_rdbit :
    logOf (exec .owRdbit (demoBus [false])) = some [.readSlot false] ∧
    logOf (exec .owRdbit (demoBus [true])) = some [.readSlot true] := by decide

/-- L2-B8: the first slot is bit 0. -/
theorem test_rdbyte_order :
    (stateOf (exec .owRdbyte (demoBus [true, false, false, false, true, false, false, true]))).map
      (fun t => (t.rxData, t.busLog.length)) = some (0x91#8, 8) := by decide

/-- L2-B11: the last slot is bit 7. -/
theorem test_rdbyte_last_slot :
    (stateOf (exec .owRdbyte (demoBus [false, false, false, false, false, false, false, true]))).map
      State.rxData = some 0x80#8 := by decide

/-- L2-B6, L2-B7. -/
theorem test_wrbit :
    logOf (exec (.owWrbit false) demo) = some [.writeSlot false] ∧
    logOf (exec (.owWrbit true) demo) = some [.writeSlot true] := by decide

/-- L2-B12: 0xCC goes out as 0,0,1,1,0,0,1,1. -/
theorem test_wrbyte_order :
    logOf (exec (.owWrbyte 0xCC#8) demo) =
      some [.writeSlot false, .writeSlot false, .writeSlot true, .writeSlot true, .writeSlot false,
        .writeSlot false, .writeSlot true, .writeSlot true] := by decide

/-- L2-B16: 0x01 goes out with its one bit first. -/
theorem test_wrbyte_first_slot :
    logOf (exec (.owWrbyte 0x01#8) demo) =
      some (.writeSlot true :: List.replicate 7 (.writeSlot false)) := by decide

/-! ### Placing and running an instruction -/

theorem test_fetched_word_runs_first :
    (stateOf (step (State.reset.withFetchWord 32 0x800))).map State.phase = some (.done .owReset) ∧
    (stateOf (step (State.reset.withFetchWord 32 0xFCC))).map State.phase = some (.done (.owWrbyte 0xCC#8)) := by
  decide

theorem test_fetched_reserved_word_faults :
    faultOf (step (State.reset.withFetchWord 32 0xA00)) = some .reservedInstruction := by decide

/-! ### The phase machine (95_test_vectors.md L2-H) and the register map (L2-A) -/

theorem test_go_from_idle : phaseAfter (portWrite 0x04 4 0x1#32 demo) = .ok (.busy .owReset) := by decide

theorem test_go_while_busy :
    portWrite 0x04 4 0x1#32 (demoIn (.busy .owReset)) = .error .goWhileNotIdle := by decide

theorem test_go_on_reserved_word :
    portWrite 0x04 4 0x1#32 { demo with instReg := 0x00000A00#32 } = .error .reservedInstruction := by decide

theorem test_clear_while_busy :
    portWrite 0x04 4 0x0#32 (demoIn (.busy .owReset)) = .error .clearWhileBusy := by decide

theorem test_clear_after_done :
    phaseAfter (portWrite 0x04 4 0x0#32 (demoIn (.done (.owWrbyte 0xCC#8)))) = .ok .recover := by decide

theorem test_soft_reset_logs_aborted :
    (portWrite 0x04 4 0x80000000#32 (demoIn (.busy .owRdbyte))).map (fun t => (t.phase, t.busLog)) =
      .ok (.resetHeld, [.aborted]) := by decide

theorem test_release_of_soft_reset :
    phaseAfter (portWrite 0x04 4 0x0#32 (demoIn .resetHeld)) = .ok .recover := by decide

theorem test_go_and_reset : portWrite 0x04 4 0x80000001#32 demo = .error .goAndReset := by decide

theorem test_ctrl_reserved_bit : portWrite 0x04 4 0x3#32 (demoIn (.busy .owReset)) = .error .reservedBits := by
  decide

theorem test_inst_write_while_busy :
    portWrite 0x00 4 0x800#32 (demoIn (.busy .owReset)) = .error .instWhileNotIdle := by decide

/-- L2-A2 to L2-A8: reads and writes that fault. -/
theorem test_bad_accesses :
    portWrite 0x0C 4 0#32 demo = .error .badAccess ∧ portWrite 0x10 4 0#32 demo = .error .badAccess ∧
    portWrite 0x1C 4 0#32 demo = .error .badAccess ∧ portRead 0x14 4 demo = .error .badAccess ∧
    portRead 0x20 4 demo = .error .badAccess ∧ portRead 0x0E 4 demo = .error .badAccess ∧
    portRead 0x0C 1 demo = .error .badAccess ∧ portWrite 0x04 1 0x01#32 demo = .error .badAccess ∧
    memRead 0x3FFFFFFC 4 demo = .error .badAccess := by decide

theorem test_id_read : memRead 0x4000001C 4 demo = .ok (0x10EE4453#32, demo) := by decide

/-- L2-A16, L2-A17. -/
theorem test_irqe_write :
    (portWrite 0x08 4 0x11#32 (demoIn (.busy .owReset))).map (fun t => (t.irqeReadyEn, t.irqeDoneEn)) =
      .ok (true, true) ∧
    portWrite 0x08 4 0x100#32 demo = .error .reservedBits := by decide

/-- L2-I2, L2-I4, L2-I7, L2-I8: the interrupt level. -/
theorem test_irq_level :
    ({ demo with irqeReadyEn := true } : State).irq = true ∧
    ({ demoIn (.done .owReset) with irqeDoneEn := true } : State).irq = true ∧
    ({ demoIn .recover with irqeReadyEn := true, irqeDoneEn := true } : State).irq = false ∧
    ({ demo with irqeReadyEn := true, params := { demoParams with irqWired := false } } : State).irq = false := by
  decide

/-! ### The Host (95_test_vectors.md L2-P) -/

/-- L2-P1: the words Configure writes to INST, in order. -/
theorem test_configure_words :
    ((configureProgram demoParams .polling ⟨75#8, 70#8, 12#8⟩).code.filterMap fun st =>
      match st with
      | .wr 0x00 v => some v
      | _ => none) =
      [0x800#32, 0xFCC#32, 0xF4E#32, 0xF4B#32, 0xF46#32, 0xF7F#32, 0x800#32, 0xFCC#32, 0xF48#32, 0xC00#32] := by
  decide +kernel

/-- L2-P3, L2-P4: equal thresholds are rejected, a resolution of 13 is a warning. -/
theorem test_configure_validation :
    configure demoParams .polling ⟨20#8, 20#8, 12#8⟩ = .error .invalidConfiguration ∧
    (configure demoParams .polling ⟨75#8, 70#8, 13#8⟩).map Prod.snd = .ok true := by decide +kernel

/-- L2-P6: ADDI wraps. -/
theorem test_addi_wraps :
    (hostStmt (.addi 2 1 1#32)
      (demo.setHost (HostState.initial.writeVar 1 0xFFFFFFFF#32))).map (fun t => t.host.vars[2]) =
      .ok (some 0#32) := by decide

/-- L2-P8: a variable never written. -/
theorem test_unwritten_variable : hostStmt (.addi 2 3 1#32) demo = .error .hostUnwritten := by decide

/-- At HALT the handler does not move (45_host_protocol.md R221), at another statement it does (R226). -/
theorem test_handler_stops_at_halt :
    (handlerMove { demoHost .idle .halt with
      irqeReadyEn := true, host := { HostState.initial with prog := [.halt], handler := true } }).irqeReadyEn = true ∧
    (handlerMove { demoHost .idle .halt with
      irqeReadyEn := true, host := { HostState.initial with prog := [.suspend], handler := true } }).irqeReadyEn =
      false := by decide

/-- 45_host_protocol.md R227: with the deadline passed, the wait goes to its timeout, and there the host resets and releases. -/
theorem test_bounded_wait_times_out :
    (hostStmt ((boundedWait demoParams 0 3#32 14 15 40 0).getD 1 .halt)
      (demo.setHost (HostState.initial.writeVar 15 0#32))).map (fun t => t.host.hpc) = .ok 40 ∧
    (operationProgram demoParams (.bounded 3#32 14 15) .owRdbyte 1).code.drop 21 =
      [.wr 0x04 0x80000000#32, .wr 0x04 0#32, .halt] ∧
    (operationProgram demoParams (.bounded 3#32 14 15) .owRdbyte 1).outcome { HostState.initial with hpc := 23 } =
      some (.error .timeout) := by decide +kernel

/-- 45_host_protocol.md R231: both polarities, after ClearGo. -/
theorem test_no_device_jump :
    (assemble 0 (resetOrFail demoParams .polling ⟨60, 61⟩)).drop 6 = [.wr 0x04 0#32, .bnei 1 0#32 60] ∧
    (assemble 0 (resetOrFail presentParams .polling ⟨60, 61⟩)).drop 6 = [.wr 0x04 0#32, .beqi 1 0#32 60] := by
  decide +kernel

/-- 45_host_protocol.md R234: a rejected cycle gives a line and the loop goes on with the next one. -/
theorem test_loop_line_and_next_cycle :
    reportLine ⟨0x91#8, 0x01#8, 0x7F#8, 0xFF#8, 0x00#8, 0xFF#8, 0x00#8, 0x10#8, 0x83#8⟩ 12#8 = "CRC mismatch" ∧
    (readLoopProgram demoParams .polling).code[(readLoopProgram demoParams .polling).done]? = some (.j 0) := by
  decide +kernel

/-- 45_host_protocol.md R235: a held gate is busy, only its holder frees it. -/
theorem test_session_gate :
    acquireGate ⟨some 0, 1⟩ = .error .busy ∧ acquireGate ⟨none, 1⟩ = .ok (1, ⟨some 1, 2⟩) ∧
    releaseGate 1 ⟨some 0, 2⟩ = ⟨some 0, 2⟩ ∧ releaseGate 0 ⟨some 0, 2⟩ = ⟨none, 2⟩ := by decide

/-! ### The data-path units (95_test_vectors.md L2-C, L2-D) -/

/-- L2-C6, L2-C14. -/
theorem test_crc_vectors :
    crc8 [0x31#8, 0x32#8, 0x33#8, 0x34#8, 0x35#8, 0x36#8, 0x37#8, 0x38#8, 0x39#8] = 0xA1#8 ∧
    (⟨0x01#8, 0x91#8, 0x7F#8, 0xFF#8, 0x00#8, 0xFF#8, 0x00#8, 0x10#8, 0x82#8⟩ : Reading).crcOk = false := by
  decide +kernel

/-- L2-D1, L2-D2, L2-D6. -/
theorem test_decoder_vectors :
    decodeTemperature 0x91#8 0x01#8 12#8 = ⟨25#16, 625#16, false⟩ ∧
    decodeTemperature 0x6E#8 0xFF#8 12#8 = ⟨-9#16, 8750#16, false⟩ ∧
    decodeTemperature 0x00#8 0x80#8 12#8 = ⟨-2048#16, 0#16, false⟩ := by decide

/-- L2-D17, L2-D20: masked and out-of-range resolutions. -/
theorem test_decoder_resolution :
    decodeTemperature 0x0F#8 0x00#8 10#8 = ⟨0#16, 7500#16, false⟩ ∧
    decodeTemperature 0x0F#8 0x00#8 13#8 = ⟨0#16, 5000#16, true⟩ := by decide

/-- L1-E1: the report of the end-to-end example. -/
theorem test_report :
    reportCycle ⟨0x91#8, 0x01#8, 0x7F#8, 0xFF#8, 0x00#8, 0xFF#8, 0x00#8, 0x10#8, 0x82#8⟩ 12#8 =
      .ok "Temperature is: 25.0625" := by decide +kernel

/-! ### Witnesses: states and operands that meet the hypotheses of each statement -/

theorem witness_DecodeAndEncodeAgree :
    demoParams.wellFormed = true ∧ dec demoParams 0xFCC#32 = some (.owWrbyte 0xCC#8) := by decide

theorem witness_OpcodeRowsAreDisjointAndComplete :
    demoParams.wellFormed = true ∧ presentParams.wellFormed = true := by decide

theorem witness_ReservedWordsAreThese :
    ({ demo with params := Params.default } : State).params = Params.default ∧
    ({ demo with params := Params.default } : State).phase = .idle ∧
    dec Params.default 0x00000E02#32 = none ∧ dec Params.default 0x00000FFF#32 ≠ none := ⟨rfl, rfl, by decide, by decide⟩

theorem witness_StepRunsTheDecodedInstruction :
    ((demoMove (.busy .owReset) .engine).fault = none ∧ (demoMove (.busy .owReset) .engine).phase = .busy .owReset ∧
      (demoMove (.busy .owReset) .engine).nextMove = .engine) ∧
    (dec demo.params 0xE01#32 = some (.owWrbit true) ∧ (Instr.owWrbit true).wellFormed = true) := by decide

theorem witness_FaultIsStickyAndFinal : (demo.raise .badAccess).fault = some .badAccess := by decide

theorem witness_RaisingRecordsTheFaultOnly :
    (demoHost .idle (.rd 1 0x14)).fault = none ∧ (demoHost .idle (.rd 1 0x14)).nextMove = .host ∧
    (demoHost .idle (.rd 1 0x14)).host.current = some (.rd 1 0x14) ∧
    hostStmt (.rd 1 0x14) (demoHost .idle (.rd 1 0x14)).popMove = .error .badAccess := by decide

theorem witness_CompletionStepEntersDone :
    ((demoMove (.busy .owReset) .engine).fault = none ∧ (demoMove (.busy .owReset) .engine).nextMove = .engine ∧
      (demoMove (.busy .owReset) .engine).phase = .busy .owReset ∧
      (demoMove (.busy .owReset) .engine).params.wellFormed = true) ∧
    (∃ t, step (demoMove (.busy (.owWrbit true)) .engine) = .next t ∧ t.phase = .done (.owWrbit true) ∧
      (demoMove (.busy (.owWrbit true)) .engine).phase ≠ .done (.owWrbit true)) :=
  ⟨by decide, _, rfl, rfl, by decide⟩

theorem witness_NoEngineStepAtRest_phases :
    (demoIn .idle).phase = .idle ∧ (demoIn (.done .owReset)).phase = .done .owReset ∧
    (demoIn .resetHeld).phase = .resetHeld := by decide

/-- Leaving by the other way to write CTRL. -/
theorem witness_NoEngineStepAtRest_memWrite :
    ∃ t, step (demoHost .idle (.memWrite 0x40000004 4 0x1#32)) = .next t ∧
      t.phase ≠ (demoHost .idle (.memWrite 0x40000004 4 0x1#32)).phase :=
  ⟨_, rfl, by decide⟩

theorem witness_NoEngineStepAtRest_leaving :
    (∃ t, step (demoHost .idle (.wr 0x04 0x1#32)) = .next t ∧ t.phase ≠ (demoHost .idle (.wr 0x04 0x1#32)).phase) ∧
    (∃ t, step (demoHost (.done .owReset) (.wr 0x04 0#32)) = .next t ∧
      t.phase ≠ (demoHost (.done .owReset) (.wr 0x04 0#32)).phase) ∧
    (∃ t, step (demoHost .resetHeld (.wr 0x04 0#32)) = .next t ∧
      t.phase ≠ (demoHost .resetHeld (.wr 0x04 0#32)).phase) :=
  ⟨⟨_, rfl, by decide⟩, ⟨_, rfl, by decide⟩, ⟨_, rfl, by decide⟩⟩

theorem witness_ReadyStepEntersIdle :
    ((demoMove .recover .engine).fault = none ∧ (demoMove .recover .engine).nextMove = .engine ∧
      (demoMove .recover .engine).phase = .recover ∧ (demoMove .recover .engine).params.wellFormed = true) ∧
    (∃ t, step (demoMove .recover .engine) = .next t ∧ (demoMove .recover .engine).nextMove = .engine ∧
      (demoMove .recover .engine).phase ≠ .idle ∧ t.phase = .idle) :=
  ⟨by decide, _, rfl, by decide, by decide, rfl⟩

/-- A state whose Host has neither program nor handler and whose Engine has no step: every move of it changes
only the interleaving. -/
theorem step_of_quiet {s : State} (hf : s.fault = none) (hp : s.host = HostState.initial)
    (he : s.phase = .done .owReset ∨ s.phase = .idle) : step s = .next s.popMove := by
  have h1 : hostMove s.popMove = s.popMove := by
    simp [hostMove, HostState.current, State.popMove, hp, HostState.initial]
  have h2 : handlerMove s.popMove = s.popMove := by
    simp [handlerMove, HostState.running, HostState.current, State.popMove, hp, HostState.initial]
  have h3 : engineMove s.popMove = .next s.popMove := by
    rcases he with he | he <;> simp [engineMove, he]
  simp only [step, hf]
  split
  · rw [h1]
  · rw [h2]
  · exact h3

/-- The run from `start` whose first move leads to the quiet state `first`. -/
def quietRun (start first : State) : Nat → State
  | 0 => start
  | n + 1 => State.popMove^[n] first

theorem quiet_iterate (first : State) (n : Nat) :
    (State.popMove^[n] first).fault = first.fault ∧ (State.popMove^[n] first).host = first.host ∧
    (State.popMove^[n] first).phase = first.phase := by
  induction n with
  | zero => exact ⟨rfl, rfl, rfl⟩
  | succ n ih => rw [Function.iterate_succ_apply']; exact ih

theorem quietRun_isRun {start first : State} (h : step start = .next first) (hf : first.fault = none)
    (hp : first.host = HostState.initial) (he : first.phase = .done .owReset ∨ first.phase = .idle) :
    IsRun (quietRun start first) := by
  intro n
  cases n with
  | zero => exact h
  | succ n =>
    obtain ⟨i1, i2, i3⟩ := quiet_iterate first n
    have hs := step_of_quiet (i1.trans hf) (i2.trans hp) (by rw [i3]; exact he)
    show step (State.popMove^[n] first) = .next (State.popMove^[n + 1] first)
    rw [Function.iterate_succ_apply']
    exact hs

theorem quietRun_fair {start first : State} (h : start.nextMove = .engine)
    (he : first.phase.engineEnabled = false) : EngineFair (quietRun start first) := by
  intro _ n hn
  cases n with
  | zero => exact ⟨0, le_refl 0, h⟩
  | succ n =>
    have := hn (n + 1) (le_refl _)
    rw [show (quietRun start first (n + 1)).phase = first.phase from (quiet_iterate first n).2.2, he] at this
    cases this

theorem witness_FairEngineMakesProgress_busy :
    ∃ r : Nat → State, IsRun r ∧ EngineFair r ∧ (r 0).params.engineFair = true ∧ (r 0).phase = .busy .owReset :=
  ⟨quietRun (demoMove (.busy .owReset) .engine) _,
    quietRun_isRun (start := demoMove (.busy .owReset) .engine) rfl rfl rfl (.inl rfl),
    quietRun_fair (start := demoMove (.busy .owReset) .engine) rfl rfl, rfl, rfl⟩

theorem witness_FairEngineMakesProgress_recover :
    ∃ r : Nat → State, IsRun r ∧ EngineFair r ∧ (r 0).params.engineFair = true ∧ (r 0).phase = .recover :=
  ⟨quietRun (demoMove .recover .engine) _,
    quietRun_isRun (start := demoMove .recover .engine) rfl rfl rfl (.inr rfl),
    quietRun_fair (start := demoMove .recover .engine) rfl rfl, rfl, rfl⟩

theorem witness_StepKeepsOpMatchesInst :
    OpMatchesInst (demoMove (.busy .owReset) .engine) ∧
    ∃ t, step (demoMove (.busy .owReset) .engine) = .next t ∧ t.phase.op = some .owReset := by
  refine ⟨?_, _, rfl, rfl⟩
  intro op h
  cases h
  decide

theorem witness_StepKeepsResultOnTheLine :
    ResultOnTheLine { demoMove (.done (.owWrbit true)) .host with busLog := [.writeSlot true] } ∧
    ∃ t, step { demoMove (.done (.owWrbit true)) .host with busLog := [.writeSlot true] } = .next t ∧
      t.phase = .done (.owWrbit true) := by
  refine ⟨?_, _, rfl, rfl⟩
  intro op h
  cases h
  exact ⟨[], rfl⟩

theorem witness_StepKeepsParamsAndLogPrefix :
    ∃ t, step (demoMove (.busy (.owWrbit true)) .engine) = .next t ∧ t.busLog = [.writeSlot true] :=
  ⟨_, rfl, rfl⟩

theorem witness_OneOperationAtATime :
    ∃ t, step (demoMove (.busy .owReset) .engine) = .next t ∧
      (demoMove (.busy .owReset) .engine).phase.op = some .owReset ∧ t.phase.op = some .owReset :=
  ⟨_, rfl, rfl, rfl⟩

theorem witness_RunningOperationCannotChange :
    (∃ t, writeGo demo = .ok t) ∧
    ((demoIn .recover).params.wellFormed = true ∧ (demoIn .recover).phase ≠ .idle) ∧
    (∃ t, step (demoMove (.busy .owReset) .host) = .next t ∧
      (demoMove (.busy .owReset) .host).phase = .busy .owReset) :=
  ⟨⟨_, rfl⟩, by decide, _, rfl, rfl⟩

theorem witness_ReadyAndDoneAreApart :
    demo.params.wellFormed = true ∧
    (∃ t, step (demoMove (.done .owReset) .host) = .next t ∧ (demoMove (.done .owReset) .host).phase.isDone = true) ∧
    (∃ t, step (demoMove .idle .host) = .next t ∧ (demoMove .idle .host).phase.ready = true) :=
  ⟨by decide, ⟨_, rfl, rfl⟩, _, rfl, rfl⟩

theorem witness_EngineMoveLeavesTheHostSide :
    ∃ t, step (demoMove (.busy .owRdbyte) .engine) = .next t ∧ (demoMove (.busy .owRdbyte) .engine).nextMove = .engine :=
  ⟨_, rfl, rfl⟩

theorem witness_ResetOperationResult : demo.params.wellFormed = true := by decide

theorem witness_ReadBitOperationResult : demo.params.wellFormed = true := by decide

theorem witness_ReadByteOperationResult : demo.params.wellFormed = true := by decide

theorem witness_WriteByteOperationResult : demo.params.wellFormed = true := by decide

/-- With the ends of WriteBit's reserved range. -/
theorem witness_WriteBitOperationResult :
    demo.params.wellFormed = true ∧ (0x00000E02#32 : Word) ≤ 0x00000E02#32 ∧ (0x00000E02#32 : Word) ≤ 0x00000EFF#32 ∧
    (0x00000EFF#32 : Word) ≤ 0x00000EFF#32 ∧
    ({ demo with params := Params.default, instReg := 0x00000E02#32 } : State).params = Params.default ∧
    ({ demo with params := Params.default, instReg := 0x00000E02#32 } : State).phase = .idle ∧
    ({ demo with params := Params.default, instReg := 0x00000E02#32 } : State).instReg = 0x00000E02#32 :=
  ⟨by decide, by decide, by decide, by decide, rfl, rfl, rfl⟩

theorem witness_BusOperationFrame :
    Instr.owWrbit true ≠ .owReset ∧ Instr.owReset ≠ .owRdbit ∧ Instr.owReset ≠ .owRdbyte := by decide

theorem witness_SoftResetRecoversFromAnyPhase :
    (demoIn .idle).params.wellFormed = true ∧ (demoIn (.busy .owReset)).params.wellFormed = true ∧
    (demoIn (.done .owReset)).params.wellFormed = true ∧ (demoIn .recover).params.wellFormed = true ∧
    (demoIn .resetHeld).params.wellFormed = true := by decide

theorem witness_IdAndWriteOnlyRegisterReads :
    demo.params.wellFormed = true ∧ demo.params.offInst = 0x00 ∧ demo.params.offCtrl = 0x04 ∧
    demo.params.offIrqe = 0x08 := by decide

theorem witness_StatReadsReadyDonePresence :
    demo.params.wellFormed = true ∧ 1 ≠ demo.params.statReady ∧ 1 ≠ demo.params.statDone ∧
    1 ≠ demo.params.statPresence := by decide

theorem witness_DataReadsTheResult :
    demo.params.wellFormed = true ∧ (demoIn (.done .owRdbit)).phase = .done .owRdbit ∧
    (demoIn (.done .owRdbyte)).phase = .done .owRdbyte ∧ demo.phase ≠ .done .owRdbit ∧
    demo.phase ≠ .done .owRdbyte := by decide

/-- Each of the three ways to be a bad access, and an address below the block, at its boundary. -/
theorem witness_BadAccessesFault :
    (3 ≠ 4 ∧ 5 ≠ 4) ∧ 0x0D % 4 ≠ 0 ∧ demo.params.blockSize ≤ 0x20 ∧ 0x3FFFFFFF < demo.params.base := by decide

/-- The last offset of the block is a register, a reserved one is not. -/
theorem witness_RegisterMapAccess :
    demo.params.wellFormed = true ∧ 0x1C % 4 = 0 ∧ 0x1C < demo.params.blockSize ∧ 0x1C ∈ demo.params.offsets ∧
    0x18 % 4 = 0 ∧ 0x18 < demo.params.blockSize ∧ 0x18 ∉ demo.params.offsets := by decide

theorem witness_ReadsHaveNoSideEffect :
    (∃ w t, portRead 0x0C 4 demo = .ok (w, t)) ∧ ∃ w t, portRead 0x1C 4 demo = .ok (w, t) :=
  ⟨⟨_, _, rfl⟩, _, _, rfl⟩

theorem witness_PhaseTransitionTable :
    demo.params.wellFormed = true ∧
    (0x2#32 : Word) &&& ~~~(bitMask demo.params.ctrlGo ||| bitMask demo.params.ctrlReset) ≠ 0#32 ∧
    (0x80000001#32 : Word) &&& ~~~(bitMask demo.params.ctrlGo ||| bitMask demo.params.ctrlReset) = 0#32 := by decide

theorem witness_InstWriteStoresOnlyInIdle :
    demo.params.wellFormed = true ∧ (demoIn .idle).phase = .idle ∧ (demoIn .resetHeld).phase ≠ .idle := by decide

theorem witness_GoAcceptedInIdle :
    demo.params.wellFormed = true ∧
    (0x1#32 : Word) &&& ~~~(bitMask demo.params.ctrlGo ||| bitMask demo.params.ctrlReset) = 0#32 ∧
    (0x1#32 : Word).getLsbD demo.params.ctrlGo = true ∧ (0x1#32 : Word).getLsbD demo.params.ctrlReset = false ∧
    demo.phase = .idle ∧ dec demo.params demo.instReg = some .owReset ∧
    dec demo.params ({ demo with instReg := 0x00000E02#32 } : State).instReg = none := by decide

theorem witness_GoRefusedOrJoinedWithReset :
    (0x80000001#32 : Word) &&& ~~~(bitMask demo.params.ctrlGo ||| bitMask demo.params.ctrlReset) = 0#32 ∧
    (0x80000001#32 : Word).getLsbD demo.params.ctrlGo = true ∧
    (0x80000001#32 : Word).getLsbD demo.params.ctrlReset = true ∧
    (0x1#32 : Word).getLsbD demo.params.ctrlReset = false ∧ (demoIn (.done .owReset)).phase ≠ .idle := by decide

theorem witness_ClearGoByPhase :
    demo.params.wellFormed = true ∧
    (0x0#32 : Word) &&& ~~~(bitMask demo.params.ctrlGo ||| bitMask demo.params.ctrlReset) = 0#32 ∧
    (0x0#32 : Word).getLsbD demo.params.ctrlGo = false ∧ (0x0#32 : Word).getLsbD demo.params.ctrlReset = false ∧
    (demoIn .idle).phase = .idle ∧ (demoIn (.busy .owReset)).phase = .busy .owReset ∧
    (demoIn (.done .owReset)).phase = .done .owReset ∧ (demoIn .recover).phase = .recover ∧
    (demoIn .resetHeld).phase = .resetHeld := by decide

theorem witness_SoftResetByPhase :
    demo.params.wellFormed = true ∧
    (0x80000000#32 : Word) &&& ~~~(bitMask demo.params.ctrlGo ||| bitMask demo.params.ctrlReset) = 0#32 ∧
    (0x80000000#32 : Word).getLsbD demo.params.ctrlGo = false ∧
    (0x80000000#32 : Word).getLsbD demo.params.ctrlReset = true ∧ (demoIn .resetHeld).phase = .resetHeld ∧
    (demoIn (.busy .owReset)).phase ≠ .resetHeld := by decide

theorem witness_IrqeWriteSetsEnables :
    demo.params.wellFormed = true ∧
    (∀ i : Nat, i ≠ demo.params.irqeReady → i ≠ demo.params.irqeDone → (0x11#32 : Word).getLsbD i = false) ∧
    (∃ i : Nat, i ≠ demo.params.irqeReady ∧ i ≠ demo.params.irqeDone ∧ (0x100#32 : Word).getLsbD i = true) := by
  refine ⟨by decide, ?_, 8, by decide⟩
  intro i h4 h0
  by_cases hi : i < 32
  · have h : ∀ i : Fin 32, i.val ≠ 4 → i.val ≠ 0 → (0x11#32 : Word).getLsbD i = false := by decide
    exact h ⟨i, hi⟩ h4 h0
  · exact BitVec.getLsbD_of_ge _ _ (by omega)

/-- One access for each disjunct of the first clause, and for each fault of the others. -/
theorem witness_FaultChecksInOrder :
    demo.params.wellFormed = true ∧ 1 ≠ 4 ∧ 0x02 % 4 ≠ 0 ∧ demo.params.blockSize ≤ 0x20 ∧
    0x0C ∉ [demo.params.offInst, demo.params.offCtrl, demo.params.offIrqe] ∧
    portWrite 0x04 4 0x2#32 demo = .error .reservedBits ∧
    portWrite 0x08 4 0x2#32 demo = .error .reservedBits ∧
    portWrite 0x04 4 0x1#32 { demo with instReg := 0#32 } = .error .reservedInstruction := by decide

theorem witness_WriteVisibleToTheNextRead :
    (∃ t u w, portWrite 0x04 4 0x1#32 demo = .ok t ∧ portRead 0x0C 4 t = .ok (w, u) ∧
      (0x1#32 : Word).getLsbD demo.params.ctrlGo = true) ∧
    (∃ t u w, portWrite 0x04 4 0x0#32 (demoIn (.done .owReset)) = .ok t ∧ portRead 0x0C 4 t = .ok (w, u) ∧
      (0x0#32 : Word).getLsbD demo.params.ctrlGo = false) :=
  ⟨⟨_, _, _, rfl, rfl, by decide⟩, _, _, _, rfl, rfl, by decide⟩

theorem witness_HandshakeRunsOneOperation :
    demo.params.wellFormed = true ∧ demo.phase = .idle ∧ (demo.params.offStat = 0x0C ∧ demo.params.offData = 0x10) := by
  decide

/-- A host about to run PRIM of op, with the moves of its quickest run. -/
def primStart (op : Instr) : State :=
  { demo with
    host := { HostState.initial with prog := prim demoParams op 1 ++ [.halt] }
    schedule := [.host, .host, .host, .engine, .host, .host, .host, .host] }

theorem witness_PrimNeverFaultsAndAppendsOneOperation_premises (op : Instr) :
    (primStart op).params.wellFormed = true ∧ CleanEntry (primStart op) [] false false ∧
    (primStart op).host.prog = prim (primStart op).params op 1 ++ [.halt] ∧
    (primStart op).host.hpc = 0 :=
  ⟨by show demoParams.wellFormed = true; decide, ⟨rfl, .inr rfl, rfl, rfl, rfl⟩, rfl, rfl⟩

/-- What a POLL of Status does where the bit it waits for is up. -/
theorem poll_goes_on {s : State} (hw : s.params.wellFormed = true) {bit : Nat}
    (hb : ∀ d, (statWord s d).getLsbD bit = true) :
    hostStmt (.poll s.params.offStat bit true) s = .ok (s.advanceDraws 1).hostAdvance := by
  have h := portRead_offset hw .stat
  simp only [Reg.offset] at h
  simp [hostStmt, hostPoll, h, readReg, hb]

/-- The state after a move, where there is one. -/
def after (s : State) : State :=
  (stateOf (step s)).getD s

/-- The state after a POLL that goes on. -/
def afterPoll (s : State) : State :=
  (s.popMove.advanceDraws 1).hostAdvance

/-- PRIM from its start to the wait for Done that goes on. -/
def primDone (op : Instr) : State :=
  afterPoll (after (after (after (afterPoll (primStart op)))))

theorem steps_poll {s : State} {bit : Nat} (hw : s.params.wellFormed = true) (hf : s.fault = none)
    (hm : s.nextMove = .host) (hc : s.host.current = some (.poll s.params.offStat bit true))
    (hb : ∀ d, (statWord s d).getLsbD bit = true) : Steps s (afterPoll s) := by
  have h := poll_goes_on (s := s.popMove) (bit := bit) hw hb
  have hc' : s.popMove.host.current = some (.poll s.popMove.params.offStat bit true) := hc
  simp only [Steps, step, hf, hm, hostMove, hc', h, afterPoll]

theorem statWord_ready_of_idle {s : State} (hw : s.params.wellFormed = true) (hp : s.phase = .idle) (d : Word) :
    (statWord s d).getLsbD s.params.statReady = true := by
  simp [statWord_bits hw, hp]

theorem statWord_done_of_done {s : State} {op : Instr} (hw : s.params.wellFormed = true) (hp : s.phase = .done op)
    (d : Word) : (statWord s d).getLsbD s.params.statDone = true := by
  have hs := (Params.wellFormed_stat hw).1
  simp [statWord_bits hw, hp, hs]

theorem steps_after {s : State} (h : (stateOf (step s)).isSome = true) : Steps s (after s) := by
  unfold Steps after
  cases hs : step s with
  | next t => rfl
  | fault f => rw [hs] at h; cases h
  | refused f => rw [hs] at h; cases h

/-- What the moves between the two waits of PRIM must show for the second wait to go on. -/
abbrev PrimMiddle (op : Instr) : Prop :=
  (stateOf (step (afterPoll (primStart op)))).isSome = true ∧
  (stateOf (step (after (afterPoll (primStart op))))).isSome = true ∧
  (stateOf (step (after (after (afterPoll (primStart op)))))).isSome = true ∧
  (after (after (after (afterPoll (primStart op))))).fault = none ∧
  (after (after (after (afterPoll (primStart op))))).nextMove = .host ∧
  (after (after (after (afterPoll (primStart op))))).params.offStat = 0x0C ∧
  (after (after (after (afterPoll (primStart op))))).params.statDone = 0 ∧
  (after (after (after (afterPoll (primStart op))))).params.wellFormed = true ∧
  (after (after (after (afterPoll (primStart op))))).phase = .done op ∧
  (after (after (after (afterPoll (primStart op))))).host.current = some (.poll 0x0C 0 true)

theorem reaches_primDone (op : Instr) (h : PrimMiddle op) : Reaches (primStart op) (primDone op) := by
  obtain ⟨h2, h3, h4, hf, hm, ho, hd, hw, hp, hc⟩ := h
  have h1 : Steps (primStart op) (afterPoll (primStart op)) :=
    have hw : demoParams.wellFormed = true := by decide
    steps_poll (bit := demoParams.statReady) hw rfl rfl rfl (statWord_ready_of_idle hw rfl)
  have h5 := steps_poll (bit := 0) hw hf hm (by rw [ho]; exact hc)
    (fun d => by have := statWord_done_of_done hw hp d; rwa [hd] at this)
  exact ((((Reaches.refl.tail h1).tail (steps_after h2)).tail (steps_after h3)).tail (steps_after h4)).tail h5

theorem witness_PrimNeverFaultsAndAppendsOneOperation_end_owReset :
    ∃ t, Reaches (primStart .owReset) t ∧ HostEnded t :=
  have h0 := reaches_primDone .owReset (by decide +kernel)
  have h1 := h0.tail (steps_after (by decide +kernel))
  have h2 := h1.tail (steps_after (by decide +kernel))
  have h3 := h2.tail (steps_after (by decide +kernel))
  ⟨_, h3, by decide +kernel⟩

theorem witness_PrimNeverFaultsAndAppendsOneOperation_end_owRdbit :
    ∃ t, Reaches (primStart .owRdbit) t ∧ HostEnded t :=
  have h0 := reaches_primDone .owRdbit (by decide +kernel)
  have h1 := h0.tail (steps_after (by decide +kernel))
  have h2 := h1.tail (steps_after (by decide +kernel))
  have h3 := h2.tail (steps_after (by decide +kernel))
  ⟨_, h3, by decide +kernel⟩

theorem witness_PrimNeverFaultsAndAppendsOneOperation_end_owRdbyte :
    ∃ t, Reaches (primStart .owRdbyte) t ∧ HostEnded t :=
  have h0 := reaches_primDone .owRdbyte (by decide +kernel)
  have h1 := h0.tail (steps_after (by decide +kernel))
  have h2 := h1.tail (steps_after (by decide +kernel))
  have h3 := h2.tail (steps_after (by decide +kernel))
  ⟨_, h3, by decide +kernel⟩

theorem witness_PrimNeverFaultsAndAppendsOneOperation_end_owWrbit :
    ∃ t, Reaches (primStart (.owWrbit true)) t ∧ HostEnded t :=
  have h0 := reaches_primDone (.owWrbit true) (by decide +kernel)
  have h1 := h0.tail (steps_after (by decide +kernel))
  ⟨_, h1, by decide +kernel⟩

theorem witness_PrimNeverFaultsAndAppendsOneOperation_end_owWrbyte :
    ∃ t, Reaches (primStart (.owWrbyte 0xCC#8)) t ∧ HostEnded t :=
  have h0 := reaches_primDone (.owWrbyte 0xCC#8) (by decide +kernel)
  have h1 := h0.tail (steps_after (by decide +kernel))
  ⟨_, h1, by decide +kernel⟩

/-- With a handler installed, too, the premises hold. -/
theorem witness_PrimNeverFaultsAndAppendsOneOperation_handler :
    let s := { primStart .owReset with host := { (primStart .owReset).host with handler := true } }
    s.params.wellFormed = true ∧ CleanEntry s [] false false ∧ s.host.handler = true ∧
    s.host.prog = prim s.params .owReset 1 ++ [.halt] ∧ s.host.hpc = 0 :=
  ⟨by show demoParams.wellFormed = true; decide, ⟨rfl, .inr rfl, rfl, rfl, rfl⟩, rfl, rfl, rfl⟩

theorem witness_HostStatementSemantics :
    (demo.setHost (HostState.initial.writeVar 1 7#32)).host.vars[1] = some 7#32 ∧ demo.host.vars[3] = none ∧
    (∃ w t, portRead 0x10 4 demo = .ok (w, t)) ∧ (∃ t, portWrite 0x00 4 7#32 demo = .ok t) ∧
    portRead 0x14 4 demo = .error .badAccess ∧ portWrite 0x14 4 7#32 demo = .error .badAccess ∧
    HostEnded (demoHost .idle .halt) ∧ (demoHost .idle .halt).nextMove = .host ∧
    HostEnded { demoHost .idle .halt with schedule := [.handler] } ∧
    ({ demoHost .idle .halt with schedule := [.handler] } : State).nextMove = .handler :=
  ⟨by decide, by decide, ⟨_, _, rfl⟩, ⟨_, rfl⟩, by decide, by decide, ⟨rfl, rfl⟩, rfl, ⟨rfl, rfl⟩, rfl⟩

theorem witness_HandlerDisablesTheSource :
    ∃ s : State, s.fault = none ∧ s.nextMove = .handler ∧ s.host.running = true ∧ s.host.handler = true ∧
      s.irq = true :=
  ⟨{ demoMove .idle .handler with
      irqeReadyEn := true, host := { HostState.initial with prog := [.suspend], handler := true } },
    by decide⟩

theorem witness_ConfigurationIsValidated :
    (8#8 : Byte) ∉ [9#8, 10#8, 11#8, 12#8] ∧ (13#8 : Byte) ∉ [9#8, 10#8, 11#8, 12#8] ∧
    (20#8 : Byte).toInt ≤ (20#8 : Byte).toInt ∧ (19#8 : Byte).toInt < (20#8 : Byte).toInt := by decide

theorem witness_CrcVerdictComparesTheLastByte :
    (⟨0x91#8, 0x01#8, 0x7F#8, 0xFF#8, 0x00#8, 0xFF#8, 0x00#8, 0x10#8, 0x82#8⟩ : Reading).crcOk = true ∧ 0 < 8 ∧
    7 < 8 := by decide +kernel

theorem witness_CrcDetectsAnyOneByteChange : (0x00#8 : Byte) ≠ 0x80#8 := by decide

/-- The largest reading that is not negative, and the smallest negative one. -/
theorem witness_DecoderIntegerPart : negTemp 0x7F#8 = false ∧ negTemp 0x80#8 = true := by decide

theorem witness_DecoderOutputRanges : negTemp 0x7F#8 = false := by decide

theorem witness_DecoderExactWhenNotNegative : negTemp 0x00#8 = false ∧ negTemp 0x7F#8 = false := by decide

theorem witness_DecoderLosesSmallSigns :
    (0xFFF1#16 : Half) ≤ rawTemp 0xF1#8 0xFF#8 ∧ (0xFFF1#16 : Half) ≤ rawTemp 0xFF#8 0xFF#8 := by decide

end Sys2Proof.Tests
end

/-! ## The register block: reads, IRQE writes and the register map (10_state.md R22 to R29)

Lemmas about the register port and the flags, then the statements about the registers. -/

namespace Sys2Proof.Machine

/-! ### The register port at an aligned offset, and at the address of an offset -/

/-- An aligned 32-bit access inside the block names the register the map gives, or faults (R22, R62). -/
theorem accessReg_aligned {P : Params} {off : Nat} (hal : off % 4 = 0) (hlt : off < P.blockSize) :
    accessReg P off 4 = (regAt P off).elim (.error .badAccess) .ok := by
  rw [accessReg, if_pos ⟨rfl, hal, hlt⟩]
  cases regAt P off <;> rfl

theorem portRead_aligned {s : State} {off : Nat} (hal : off % 4 = 0) (hlt : off < s.params.blockSize) :
    portRead off 4 s = (regAt s.params off).elim (.error .badAccess) (fun r => .ok (readReg r s)) := by
  rw [portRead, accessReg_aligned hal hlt]
  cases regAt s.params off <;> rfl

theorem portWrite_aligned {s : State} {off : Nat} (v : Word) (hal : off % 4 = 0)
    (hlt : off < s.params.blockSize) :
    portWrite off 4 v s = (regAt s.params off).elim (.error .badAccess) (fun r => writeReg r v s) := by
  rw [portWrite, accessReg_aligned hal hlt]
  cases regAt s.params off <;> rfl

@[simp] theorem offsetOf_base_add (P : Params) (off : Nat) : offsetOf P (P.base + off) = .ok off := by
  simp [offsetOf]

/-- A read by address is the read at the offset the address has in the block. -/
@[simp] theorem memRead_base_add (s : State) (off bytes : Nat) :
    memRead (s.params.base + off) bytes s = portRead off bytes s := by
  simp [memRead]

/-- A write by address is the write at the offset the address has in the block. -/
@[simp] theorem memWrite_base_add (s : State) (off bytes : Nat) (v : Word) :
    memWrite (s.params.base + off) bytes v s = portWrite off bytes v s := by
  simp [memWrite]

/-! ### The flags and the Data word -/

theorem Phase.ready_iff (p : Phase) : p.ready = true ↔ p = .idle := by
  cases p <;> simp

theorem Phase.isDone_iff (p : Phase) : p.isDone = true ↔ ∃ op, p = .done op := by
  cases p <;> simp

/-- Above the low byte, a DATA read of a byte result keeps the drawn word. -/
theorem getLsbD_dataWord_readByte_high {s : State} (h : s.phase = .done .owRdbyte) (d : Word) {i : Nat}
    (hi : 8 ≤ i) : (dataWord s d).getLsbD i = d.getLsbD i := by
  rw [dataWord_readByte h, BitVec.getLsbD_append, if_neg (by omega), BitVec.getLsbD_extractLsb']
  by_cases h32 : i < 32
  · simp [show i - 8 < 24 by omega, show 8 + (i - 8) = i by omega]
  · simp [show ¬ i - 8 < 24 by omega, BitVec.getLsbD_of_ge d i (by omega)]

/-! ### IRQE writes -/

/-- No bit outside the two enables is set exactly when the word passes the reserved-bit check of R27. -/
theorem and_not_irqeMask_eq_zero {P : Params} (h : P.wellFormed = true) (v : Word) :
    v &&& ~~~irqeMask P = 0#32 ↔ ∀ i, i ≠ P.irqeReady → i ≠ P.irqeDone → v.getLsbD i = false :=
  have ⟨_, hdone, hready⟩ := Params.wellFormed_irqe h
  and_not_masks_eq_zero hready hdone v

theorem writeIrqe_reservedBits {v : Word} {s : State} (h : v &&& ~~~irqeMask s.params ≠ 0#32) :
    writeIrqe v s = .error .reservedBits :=
  if_pos h

/-! ### The statements -/

/-- Settles O30: Ready, Done and Presence are the flags of the phase, and every other bit is the drawn word's. -/
theorem statReadsReadyDonePresence : Obligations.StatReadsReadyDonePresence := by
  intro s v hw
  obtain ⟨hDR, hDP, hRP, -⟩ := Params.wellFormed_stat hw
  have bits := statWord_bits hw (Config.draw s.draws)
  refine ⟨⟨statWord s (Config.draw s.draws), portRead_offset hw .stat, ?_, ?_, ?_, ?_⟩,
    portWrite_offset hw .stat v⟩
  · rw [bits, if_pos rfl, Phase.ready_iff]
  · rw [bits, if_neg hDR, if_pos rfl, Phase.isDone_iff]
  · rw [bits, if_neg hRP.symm, if_neg hDP.symm]
    simp
  · intro i hR hD hP
    rw [bits, if_neg hR, if_neg hD, if_neg (fun h => hP h.1)]

/-- Settles O31: a bit result replaces bit 0 of the drawn word, a byte result its low byte, and no result nothing. -/
theorem dataReadsTheResult : Obligations.DataReadsTheResult := by
  intro s v hw
  refine ⟨⟨dataWord s (Config.draw s.draws), portRead_offset hw .data, ?_, ?_, ?_⟩,
    portWrite_offset hw .data v⟩
  · intro hp
    rw [dataWord_readBit hp]
    exact ⟨getLsbD_setBit_same _ _ _ (by decide),
      fun i hi => getLsbD_setBit_other _ _ _ _ (by decide) (by omega)⟩
  · intro hp
    exact ⟨by rw [dataWord_readByte hp, low_byte_append],
      fun i hi => getLsbD_dataWord_readByte_high hp _ hi⟩
  · intro hbit hbyte
    exact dataWord_none hbit hbyte _

/-- Settles O33: the port follows the map of R22, which tests the offsets in the order the statement does; an
address of the block reaches the port at its offset. -/
theorem registerMapAccess : Obligations.RegisterMapAccess := by
  intro s off v _ hal hlt
  refine ⟨?_, ?_, memRead_base_add s off 4, memWrite_base_add s off 4 v⟩
  · rw [portWrite_aligned v hal hlt, regAt]
    split_ifs <;> rfl
  · rw [portRead_aligned hal hlt, regAt]
    simp only [ite_or]
    split_ifs <;> rfl

/-- Settles O41: the reserved-bit check of R27 passes exactly when no other bit is set, and no phase is asked. -/
theorem irqeWriteSetsEnables : Obligations.IrqeWriteSetsEnables := by
  intro s v hw
  have hwrite : portWrite s.params.offIrqe 4 v s = writeIrqe v s := portWrite_offset hw .irqe v
  rw [hwrite]
  constructor
  · intro hclear
    exact writeIrqe_ok.mpr ⟨(and_not_irqeMask_eq_zero hw v).mpr hclear, rfl⟩
  · rintro ⟨i, hR, hD, hi⟩
    apply writeIrqe_reservedBits
    intro hzero
    have hi' := (and_not_irqeMask_eq_zero hw v).mp hzero i hR hD
    simp [hi] at hi'

/-- Settles O29: at its own offset a register is read and written by its rule in the register block. -/
theorem idAndWriteOnlyRegisterReads : Obligations.IdAndWriteOnlyRegisterReads := by
  constructor
  · intro s v hw
    exact ⟨portRead_offset hw .id, portWrite_offset hw .id v⟩
  · rintro s off hw (rfl | rfl | rfl)
    · exact portRead_offset hw .inst
    · exact portRead_offset hw .ctrl
    · exact portRead_offset hw .irqe

end Sys2Proof.Machine

/-! ## Accesses and a running operation (20_memory.md R62, R75)

Lemmas about bad accesses and about what a move can do in BUSY, then the statements about them. -/

namespace Sys2Proof.Machine

/-! ### Accesses the port does not admit -/

/-- Of another width, misaligned, or at or above the block's size, an access names no register (R62). -/
theorem accessReg_badAccess {P : Params} {off bytes : Nat}
    (h : bytes ≠ 4 ∨ off % 4 ≠ 0 ∨ P.blockSize ≤ off) : accessReg P off bytes = .error .badAccess := by
  rw [accessReg, if_neg]
  omega

theorem portRead_of_accessReg_error {s : State} {off bytes : Nat} {f : Fault}
    (h : accessReg s.params off bytes = .error f) : portRead off bytes s = .error f := by
  simp [portRead, h]

theorem portWrite_of_accessReg_error {s : State} {off bytes : Nat} {f : Fault} (v : Word)
    (h : accessReg s.params off bytes = .error f) : portWrite off bytes v s = .error f := by
  simp [portWrite, h]

/-- An address below P_BASE is outside the block (R62). -/
theorem offsetOf_below_base {P : Params} {addr : Nat} (h : addr < P.base) :
    offsetOf P addr = .error .badAccess :=
  if_neg (Nat.not_le.mpr h)

theorem memRead_below_base {s : State} {addr : Nat} (bytes : Nat) (h : addr < s.params.base) :
    memRead addr bytes s = .error .badAccess := by
  simp [memRead, offsetOf_below_base h]

theorem memWrite_below_base {s : State} {addr : Nat} (bytes : Nat) (v : Word) (h : addr < s.params.base) :
    memWrite addr bytes v s = .error .badAccess := by
  simp [memWrite, offsetOf_below_base h]

/-! ### What a move can do in BUSY -/

theorem writeInst_not_idle {s : State} (v : Word) (h : s.phase ≠ .idle) :
    writeInst v s = .error .instWhileNotIdle := by
  unfold writeInst
  cases hp : s.phase with
  | idle => exact absurd hp h
  | busy | done | recover | resetHeld => rfl

/-- An operation completes in DONE of itself (40_handshake.md R120). -/
theorem exec_phase {i : Instr} {s t : State} (h : exec i s = .next t) : t.phase = .done i := by
  cases i <;> cases h <;> rfl

/-- No operation writes INST (41_bus_primitives.md R140). -/
theorem exec_instReg {i : Instr} {s t : State} (h : exec i s = .next t) : t.instReg = s.instReg := by
  cases i <;> cases h <;> simp

/-- In BUSY a register write leaves INST, and the running operation but for a soft reset that cuts it off. -/
theorem WriteEffect.busy {s t : State} {op : Instr} (h : WriteEffect s t) (hp : s.phase = .busy op) :
    t.instReg = s.instReg ∧ (t.phase = .busy op ∨ t.phase = .resetHeld) := by
  cases h with
  | inst v hidle => simp [hp] at hidle
  | go op' hidle => simp [hp] at hidle
  | none => exact ⟨rfl, .inl hp⟩
  | clear hrest => simp [hp] at hrest
  | reset hnot => exact absurd hp (hnot op)
  | abort => exact ⟨by simp, .inr rfl⟩
  | irqe => exact ⟨rfl, .inl hp⟩

/-- In BUSY a host statement leaves INST, and the running operation but for a soft reset. -/
theorem StmtEffect.busy {s t : State} {op : Instr} (h : StmtEffect s t) (hp : s.phase = .busy op) :
    t.instReg = s.instReg ∧ (t.phase = .busy op ∨ t.phase = .resetHeld) := by
  cases h with
  | still => exact ⟨rfl, .inl hp⟩
  | read => exact ⟨rfl, .inl hp⟩
  | write hw => exact hw.busy hp

/-- From BUSY a step leaves INST; it keeps the operation running, completes it, or is its soft reset. -/
theorem step_busy {s t : State} {op : Instr} (h : step s = .next t) (hp : s.phase = .busy op) :
    t.instReg = s.instReg ∧ (t.phase = .busy op ∨ t.phase = .done op ∨ t.phase = .resetHeld) := by
  obtain ⟨-, ⟨-, hhost⟩ | ⟨-, hhandler⟩ | ⟨-, hengine⟩⟩ := step_cases h
  · obtain ⟨u, hs, hu, rfl⟩ | ⟨f, rfl⟩ := hhost
    · obtain ⟨hinst, hphase⟩ := hu.busy hp
      exact ⟨hinst, hphase.imp_right .inr⟩
    · exact ⟨rfl, .inl hp⟩
  · obtain rfl | rfl := hhandler
    · exact ⟨rfl, .inl hp⟩
    · exact ⟨rfl, .inl hp⟩
  · obtain ⟨op', hbusy, hexec⟩ | ⟨hrecover, -⟩ | ⟨hdisabled, -⟩ := hengine
    · obtain rfl : op = op' := Phase.busy.inj (hp.symm.trans hbusy)
      have hinst := exec_instReg hexec
      exact ⟨hinst, .inr (.inl (exec_phase hexec))⟩
    · simp [hp] at hrecover
    · simp [hp] at hdisabled

/-! ### The statements -/

/-- Settles O32: an access the port does not admit ends before a register is named, by offset or by address. -/
theorem badAccessesFault : Obligations.BadAccessesFault := by
  constructor
  · intro s off bytes v hbad
    have hreg := accessReg_badAccess hbad
    rw [memRead_base_add, memWrite_base_add]
    have hread := portRead_of_accessReg_error hreg
    have hwrite := portWrite_of_accessReg_error v hreg
    exact ⟨hread, hwrite, hread, hwrite⟩
  · intro s addr bytes v hbelow
    exact ⟨memRead_below_base bytes hbelow, memWrite_below_base bytes v hbelow⟩

/-- Settles O20: Go decodes INST, INST is not written outside IDLE, and no move in BUSY changes either. -/
theorem runningOperationCannotChange : Obligations.RunningOperationCannotChange := by
  refine ⟨?_, ?_, ?_⟩
  · intro s t hgo
    obtain ⟨-, op, hdec, rfl⟩ := writeGo_ok.mp hgo
    exact ⟨op, hdec, rfl⟩
  · intro s v hw hidle
    exact (portWrite_offset hw .inst v).trans (writeInst_not_idle v hidle)
  · intro s t op hstep hbusy
    exact step_busy hstep hbusy

end Sys2Proof.Machine

/-! ## The instruction word: operands and reserved words (30_encoding.md R82, R85)

Lemmas about decoding with the default codes, on the word read as a number, then the statements about the word. -/

namespace Sys2Proof.Laws

/-! ### Words that decode to nothing -/

/-- A word is reserved exactly if every branch of R83 passes it by. -/
theorem dec_eq_none_iff {P : Params} {w : Word} :
    dec P w = none ↔ w ≠ P.opReset ∧ w ≠ P.opReadBit ∧ w ≠ P.opReadByte ∧
      w &&& ~~~1#32 ≠ P.opWriteBit ∧ w &&& ~~~0xFF#32 ≠ P.opWriteByte := by
  unfold dec
  split_ifs <;> simp_all

/-- Masking off the low `k` bits clears the word's last `k` binary digits. -/
theorem toNat_and_allOnes_shiftLeft (w : Word) (k : ℕ) :
    (w &&& BitVec.allOnes 32 <<< k).toNat = w.toNat / 2 ^ k * 2 ^ k := by
  have hlt : w.toNat / 2 ^ k * 2 ^ k < 2 ^ 32 := (Nat.div_mul_le_self _ _).trans_lt w.isLt
  rw [← BitVec.shiftLeft_ushiftRight, BitVec.toNat_shiftLeft, BitVec.toNat_ushiftRight,
    Nat.shiftRight_eq_div_pow, Nat.shiftLeft_eq, Nat.mod_eq_of_lt hlt]

theorem toNat_and_bitOperandMask (w : Word) : (w &&& ~~~1#32).toNat = w.toNat / 2 * 2 :=
  toNat_and_allOnes_shiftLeft w 1

theorem toNat_and_byteOperandMask (w : Word) : (w &&& ~~~0xFF#32).toNat = w.toNat / 256 * 256 :=
  toNat_and_allOnes_shiftLeft w 8

/-! ### The legal words under the default codes -/

/-- The words of R81's format table, as numbers: three without an operand, two of WriteBit, 256 of WriteByte. -/
def defaultLegalWords : Finset ℕ :=
  {0x800, 0xC00, 0xD00} ∪ Finset.Ico 0xE00 0xE02 ∪ Finset.Ico 0xF00 0x1000

theorem mem_defaultLegalWords {n : ℕ} :
    n ∈ defaultLegalWords ↔ n = 0x800 ∨ n = 0xC00 ∨ n = 0xD00 ∨ n / 2 * 2 = 0xE00 ∨ n / 256 * 256 = 0xF00 := by
  simp only [defaultLegalWords, Finset.mem_union, Finset.mem_insert, Finset.mem_singleton, Finset.mem_Ico]
  omega

theorem card_defaultLegalWords : defaultLegalWords.card = 261 := by
  have hsingles : Disjoint ({0x800, 0xC00, 0xD00} : Finset ℕ) (Finset.Ico 0xE00 0xE02) := by
    simp [Finset.disjoint_left]
  have hbytes : Disjoint ({0x800, 0xC00, 0xD00} ∪ Finset.Ico 0xE00 0xE02) (Finset.Ico 0xF00 0x1000) := by
    simp only [Finset.disjoint_left, Finset.mem_union, Finset.mem_insert, Finset.mem_singleton, Finset.mem_Ico]
    omega
  calc defaultLegalWords.card = 3 + (0xE02 - 0xE00) + (0x1000 - 0xF00) := by
        rw [defaultLegalWords, Finset.card_union_of_disjoint hbytes, Finset.card_union_of_disjoint hsingles,
          Nat.card_Ico, Nat.card_Ico]
        rfl
    _ = 261 := rfl

theorem lt_of_mem_defaultLegalWords {n : ℕ} (h : n ∈ defaultLegalWords) : n < 4096 := by
  rw [mem_defaultLegalWords] at h
  omega

theorem dec_default_eq_none_iff {w : Word} : dec Params.default w = none ↔ w.toNat ∉ defaultLegalWords := by
  rw [dec_eq_none_iff, mem_defaultLegalWords]
  simp only [ne_eq, ← BitVec.toNat_inj, toNat_and_bitOperandMask, toNat_and_byteOperandMask, not_or]
  rfl

theorem isSome_dec_default_iff {w : Word} :
    (dec Params.default w).isSome = true ↔ w.toNat ∈ defaultLegalWords := by
  rw [Option.isSome_iff_ne_none, ne_eq, dec_default_eq_none_iff, not_not]

/-- R85 in the fields of R81: with bits 31:12 zero, the operation selector says which low bits a legal word may
set. -/
theorem notMem_defaultLegalWords_iff_fields (w : Word) :
    w.toNat ∉ defaultLegalWords ↔
      (w.extractLsb' 12 20 ≠ 0#20 ∨
       w.extractLsb' 8 4 ∉ [0x8#4, 0xC#4, 0xD#4, 0xE#4, 0xF#4] ∨
       (w.extractLsb' 8 4 ∈ [0x8#4, 0xC#4, 0xD#4] ∧ w.extractLsb' 0 8 ≠ 0#8) ∨
       (w.extractLsb' 8 4 = 0xE#4 ∧ w.extractLsb' 1 7 ≠ 0#7)) := by
  rw [mem_defaultLegalWords]
  simp only [List.mem_cons, List.not_mem_nil, or_false, ne_eq, ← BitVec.toNat_inj, BitVec.extractLsb'_toNat,
    BitVec.toNat_ofNat, Nat.shiftRight_eq_div_pow]
  constructor
  · intro hnone
    by_contra hfields
    push Not at hfields
    obtain ⟨hzero, hopc, hoperand, hbit⟩ := hfields
    rcases hopc with hopc | hopc | hopc | hopc | hopc
    · have hlow := hoperand (.inl hopc)
      omega
    · have hlow := hoperand (.inr (.inl hopc))
      omega
    · have hlow := hoperand (.inr (.inr hopc))
      omega
    · have hlow := hbit hopc
      omega
    · omega
  · intro hfields
    omega

/-- The twelve low bits hold every legal word, so counting there counts them all (R85). -/
theorem length_filter_dec_default :
    ((List.range 4096).filter fun n => (dec Params.default (BitVec.ofNat 32 n)).isSome).length = 261 := by
  have hlegal : {n ∈ Finset.range 4096 | (dec Params.default (BitVec.ofNat 32 n)).isSome} = defaultLegalWords := by
    ext n
    rw [Finset.mem_filter, Finset.mem_range, isSome_dec_default_iff, BitVec.toNat_ofNat]
    constructor
    · rintro ⟨hlt, hmem⟩
      rwa [Nat.mod_eq_of_lt (by omega)] at hmem
    · intro hmem
      have hlt := lt_of_mem_defaultLegalWords hmem
      exact ⟨hlt, by rwa [Nat.mod_eq_of_lt (by omega)]⟩
  rw [← card_defaultLegalWords, ← hlegal, ← Nat.count_eq_card_filter_range, Nat.count, List.countP_eq_length_filter]
  simp only [Bool.decide_eq_true]

end Sys2Proof.Laws

namespace Sys2Proof.Machine

/-! ### Go on a reserved word -/

/-- Go in IDLE while INST holds a reserved word (40_handshake.md R105). -/
theorem writeGo_reserved {s : State} (hidle : s.phase = .idle) (hdec : dec s.params s.instReg = none) :
    writeGo s = .error .reservedInstruction := by
  simp [writeGo, hidle, hdec]

/-! ### The statements -/

/-- Settles O1: the code of an operation without an operand is ORed with 0, the others with their operand. -/
theorem encodeOrsTheOperandIntoTheCode : Obligations.EncodeOrsTheOperandIntoTheCode := by
  constructor
  · intro P
    refine ⟨?_, ?_, ?_, fun b => rfl, fun v => rfl⟩
    · exact BitVec.or_zero
    · exact BitVec.or_zero
    · exact BitVec.or_zero
  · decide

/-- Settles O5: read as numbers the legal words are three single ones and two intervals, all below 4096; a
reserved word is stored like any other, and Go finds no operation in it. -/
theorem reservedWordsAreThese : Obligations.ReservedWordsAreThese := by
  refine ⟨?_, ?_, Laws.length_filter_dec_default, ?_⟩
  · intro w
    rw [Laws.dec_default_eq_none_iff, Laws.notMem_defaultLegalWords_iff_fields]
  · intro w hlegal
    rw [ne_eq, Laws.dec_default_eq_none_iff, not_not] at hlegal
    exact Laws.lt_of_mem_defaultLegalWords hlegal
  · intro s w hparams hidle hreserved
    have hw : s.params.wellFormed = true := hparams ▸ Params.default_wellFormed
    have hdec : dec s.params w = none := hparams ▸ hreserved
    constructor
    · exact (portWrite_offset hw .inst w).trans (writeInst_ok.mpr ⟨hidle, rfl⟩)
    · calc portWrite s.params.offCtrl 4 (bitMask s.params.ctrlGo) (s.setInst w)
          = writeCtrl (bitMask s.params.ctrlGo) (s.setInst w) :=
            portWrite_offset (s := s.setInst w) hw .ctrl _
        _ = writeGo (s.setInst w) := writeCtrl_go (s := s.setInst w) hw
        _ = .error .reservedInstruction := writeGo_reserved hidle hdec

end Sys2Proof.Machine

/-! ## The handshake (40_handshake.md R102 to R109, R120 to R124)

Lemmas about the Status flags, the INST and CTRL writes, the Engine's move and the moves that change the phase, then
the statements about the handshake. -/

namespace Sys2Proof.Machine

/-! ### What the Status word shows of the phase -/

theorem getLsbD_statWord_ready {s : State} (hw : s.params.wellFormed = true) (d : Word) :
    (statWord s d).getLsbD s.params.statReady = s.phase.ready := by
  rw [statWord_bits hw, if_pos rfl]

theorem getLsbD_statWord_done {s : State} (hw : s.params.wellFormed = true) (d : Word) :
    (statWord s d).getLsbD s.params.statDone = s.phase.isDone := by
  obtain ⟨hDR, -⟩ := Params.wellFormed_stat hw
  rw [statWord_bits hw, if_neg hDR, if_pos rfl]

theorem getLsbD_statWord_presence {s : State} (hw : s.params.wellFormed = true) (d : Word) :
    (statWord s d).getLsbD s.params.statPresence =
      if s.phase = .done .owReset then s.presenceFlag else d.getLsbD s.params.statPresence := by
  obtain ⟨-, hDP, hRP, -⟩ := Params.wellFormed_stat hw
  rw [statWord_bits hw, if_neg hRP.symm, if_neg hDP.symm]
  simp

/-! ### INST and CTRL writes, by phase -/

theorem portWrite_offInst {s : State} (hw : s.params.wellFormed = true) (v : Word) :
    portWrite s.params.offInst 4 v s = writeInst v s :=
  portWrite_offset hw .inst v

theorem portWrite_offCtrl {s : State} (hw : s.params.wellFormed = true) (v : Word) :
    portWrite s.params.offCtrl 4 v s = writeCtrl v s :=
  portWrite_offset hw .ctrl v

theorem writeInst_idle {s : State} (v : Word) (h : s.phase = .idle) : writeInst v s = .ok (s.setInst v) :=
  writeInst_ok.mpr ⟨h, rfl⟩

theorem writeGo_decoded {s : State} {op : Instr} (hidle : s.phase = .idle) (hdec : dec s.params s.instReg = some op) :
    writeGo s = .ok (s.setPhase (.busy op)) :=
  writeGo_ok.mpr ⟨hidle, op, hdec, rfl⟩

theorem writeGo_not_idle {s : State} (h : s.phase ≠ .idle) : writeGo s = .error .goWhileNotIdle := by
  unfold writeGo
  cases hp : s.phase with
  | idle => exact absurd hp h
  | busy | done | recover | resetHeld => rfl

theorem writeClearGo_busy {s : State} {op : Instr} (h : s.phase = .busy op) :
    writeClearGo s = .error .clearWhileBusy := by
  simp [writeClearGo, h]

/-- With nothing to clear, ClearGo changes nothing (R107). -/
theorem writeClearGo_same {s : State} (h : s.phase = .idle ∨ s.phase = .recover) : writeClearGo s = .ok s :=
  writeClearGo_ok.mpr (.inl ⟨h, rfl⟩)

/-- ClearGo ends DONE, and releases a soft reset (R107). -/
theorem writeClearGo_recover {s : State} (h : (∃ op, s.phase = .done op) ∨ s.phase = .resetHeld) :
    writeClearGo s = .ok (s.setPhase .recover) :=
  writeClearGo_ok.mpr (.inr ⟨h, rfl⟩)

theorem writeSoftReset_phase (s : State) : (writeSoftReset s).phase = .resetHeld := by
  obtain ⟨hheld, h⟩ | ⟨-, ⟨-, h⟩ | ⟨-, h⟩⟩ := writeSoftReset_cases s
  · rw [h, hheld]
  · rw [h, State.setPhase_phase]
  · rw [h, State.setPhase_phase]

/-! ### A CTRL word, by its bits -/

theorem writeCtrl_reservedBits {v : Word} {s : State} (h : v &&& ~~~ctrlMask s.params ≠ 0#32) :
    writeCtrl v s = .error .reservedBits :=
  if_pos h

section
variable {v : Word} {s : State} (hmask : v &&& ~~~ctrlMask s.params = 0#32)
include hmask

theorem writeCtrl_eq_writeGo (hgo : v.getLsbD s.params.ctrlGo = true) (hreset : v.getLsbD s.params.ctrlReset = false) :
    writeCtrl v s = writeGo s := by
  rw [writeCtrl, if_neg (not_not.mpr hmask), hgo, hreset]

theorem writeCtrl_eq_writeClearGo (hgo : v.getLsbD s.params.ctrlGo = false)
    (hreset : v.getLsbD s.params.ctrlReset = false) : writeCtrl v s = writeClearGo s := by
  rw [writeCtrl, if_neg (not_not.mpr hmask), hgo, hreset]

theorem writeCtrl_eq_writeSoftReset (hgo : v.getLsbD s.params.ctrlGo = false)
    (hreset : v.getLsbD s.params.ctrlReset = true) : writeCtrl v s = .ok (writeSoftReset s) := by
  rw [writeCtrl, if_neg (not_not.mpr hmask), hgo, hreset]

theorem writeCtrl_goAndReset (hgo : v.getLsbD s.params.ctrlGo = true) (hreset : v.getLsbD s.params.ctrlReset = true) :
    writeCtrl v s = .error .goAndReset := by
  rw [writeCtrl, if_neg (not_not.mpr hmask), hgo, hreset]

end

/-! ### What a CTRL write leaves in the bus log -/

/-- The RESET bit tells a soft reset from the two other writes of CTRL that succeed (R104). -/
theorem writeCtrl_ok_reset {v : Word} {s t : State} (h : writeCtrl v s = .ok t) :
    v.getLsbD s.params.ctrlReset = true ∧ t = writeSoftReset s ∨
    v.getLsbD s.params.ctrlReset = false ∧ (writeGo s = .ok t ∨ writeClearGo s = .ok t) := by
  by_cases hmask : v &&& ~~~ctrlMask s.params = 0#32
  · cases hgo : v.getLsbD s.params.ctrlGo <;> cases hreset : v.getLsbD s.params.ctrlReset
    · exact .inr ⟨rfl, .inr ((writeCtrl_eq_writeClearGo hmask hgo hreset).symm.trans h)⟩
    · rw [writeCtrl_eq_writeSoftReset hmask hgo hreset] at h
      exact .inl ⟨rfl, (Except.ok.inj h).symm⟩
    · exact .inr ⟨rfl, .inl ((writeCtrl_eq_writeGo hmask hgo hreset).symm.trans h)⟩
    · simp [writeCtrl_goAndReset hmask hgo hreset] at h
  · simp [writeCtrl_reservedBits hmask] at h

theorem writeGo_busLog {s t : State} (h : writeGo s = .ok t) : t.busLog = s.busLog := by
  obtain ⟨-, op, -, rfl⟩ := writeGo_ok.mp h
  rfl

theorem writeClearGo_busLog {s t : State} (h : writeClearGo s = .ok t) : t.busLog = s.busLog := by
  obtain ⟨-, rfl⟩ | ⟨-, rfl⟩ := writeClearGo_ok.mp h <;> rfl

theorem writeSoftReset_busLog_busy {s : State} {op : Instr} (h : s.phase = .busy op) :
    (writeSoftReset s).busLog = s.busLog ++ [.aborted] := by
  simp [writeSoftReset, h]

theorem writeSoftReset_busLog_not_busy {s : State} (h : ∀ op, s.phase ≠ .busy op) :
    (writeSoftReset s).busLog = s.busLog := by
  obtain ⟨-, he⟩ | ⟨-, ⟨⟨op, hp⟩, -⟩ | ⟨-, he⟩⟩ := writeSoftReset_cases s
  · rw [he]
  · exact absurd hp (h op)
  · rw [he]
    rfl

/-! ### Whose move a step is, and the Engine's move by phase -/

section
variable {s : State} (hf : s.fault = none)
include hf

theorem step_of_host (hm : s.nextMove = .host) : step s = .next (hostMove s.popMove) := by
  simp [step, hf, hm]

theorem step_of_handler (hm : s.nextMove = .handler) : step s = .next (handlerMove s.popMove) := by
  simp [step, hf, hm]

theorem step_of_engine (hm : s.nextMove = .engine) : step s = engineMove s.popMove := by
  simp [step, hf, hm]

end

theorem engineMove_busy {s : State} {op : Instr} (h : s.phase = .busy op) : engineMove s = exec op s := by
  simp [engineMove, h]

theorem engineMove_recover {s : State} (h : s.phase = .recover) : engineMove s = .next (s.setPhase .idle) := by
  simp [engineMove, h]

/-- Where the Engine has no step, its turn changes nothing (R122). -/
theorem engineMove_not_enabled {s : State} (h : s.phase.engineEnabled = false) : engineMove s = .next s := by
  unfold engineMove
  cases hp : s.phase with
  | busy | recover => simp [hp] at h
  | idle | done | resetHeld => rfl

/-- The Engine column of R102. -/
theorem engineMove_phase {s t : State} (h : engineMove s = .next t) :
    (∃ op, s.phase = .busy op ∧ t.phase = .done op) ∨ s.phase = .recover ∧ t.phase = .idle ∨
      s.phase.engineEnabled = false ∧ t.phase = s.phase := by
  cases hp : s.phase with
  | busy op =>
    rw [engineMove_busy hp] at h
    exact .inl ⟨op, rfl, exec_phase h⟩
  | recover =>
    rw [engineMove_recover hp] at h
    obtain rfl := Host.Outcome.next.inj h
    exact .inr (.inl ⟨rfl, rfl⟩)
  | idle | done | resetHeld =>
    rw [engineMove_not_enabled (by rw [hp]; rfl)] at h
    obtain rfl := Host.Outcome.next.inj h
    exact .inr (.inr ⟨rfl, hp⟩)

/-- Every operation completes (41_bus_primitives.md R140). -/
theorem exec_next (i : Instr) (s : State) : ∃ t, exec i s = .next t := by
  cases i <;> exact ⟨_, rfl⟩

theorem exec_params {i : Instr} {s t : State} (h : exec i s = .next t) : t.params = s.params := by
  cases i <;> cases h <;> simp

/-! ### DONE is entered by the Engine only -/

/-- No register write enters DONE. -/
theorem WriteEffect.done {s t : State} {i : Instr} (h : WriteEffect s t) (hd : t.phase = .done i) :
    s.phase = .done i := by
  cases h with
  | inst | none | irqe => exact hd
  | go | clear | reset | abort => simp at hd

/-- No host statement enters DONE. -/
theorem StmtEffect.done {s t : State} {i : Instr} (h : StmtEffect s t) (hd : t.phase = .done i) :
    s.phase = .done i := by
  cases h with
  | still | read => exact hd
  | write hw => exact hw.done hd

/-- A step that enters DONE is the completion step (R120). -/
theorem step_enters_done {s t : State} {i : Instr} (h : step s = .next t) (hd : t.phase = .done i)
    (hnot : s.phase ≠ .done i) : s.phase = .busy i ∧ s.nextMove = .engine := by
  obtain ⟨hf, ⟨-, hhost⟩ | ⟨-, hhandler⟩ | ⟨hm, -⟩⟩ := step_cases h
  · obtain ⟨u, hs, hu, rfl⟩ | ⟨f, rfl⟩ := hhost
    · exact absurd (hu.done hd) hnot
    · exact absurd hd hnot
  · obtain rfl | rfl := hhandler <;> exact absurd hd hnot
  · rw [step_of_engine hf hm] at h
    obtain ⟨op, hbusy, hdone⟩ | ⟨-, hidle⟩ | ⟨-, hsame⟩ := engineMove_phase h
    · obtain rfl : op = i := Phase.done.inj (hdone.symm.trans hd)
      exact ⟨hbusy, hm⟩
    · simp [hd] at hidle
    · exact absurd (hsame.symm.trans hd) hnot

/-! ### A move of the Host that changes the phase is a CTRL write -/

/-- The register at an offset is the one with that offset (R22). -/
theorem offset_of_regAt {P : Params} {off : Nat} {r : Reg} (h : regAt P off = some r) : off = r.offset P := by
  unfold regAt at h
  split_ifs at h <;> cases h <;> assumption

theorem writeReg_changes_phase {r : Reg} {v : Word} {s t : State} (h : writeReg r v s = .ok t)
    (hp : t.phase ≠ s.phase) : r = .ctrl := by
  cases r with
  | ctrl => rfl
  | inst =>
    obtain ⟨-, rfl⟩ := writeInst_ok.mp h
    exact absurd rfl hp
  | irqe =>
    obtain ⟨-, rfl⟩ := writeIrqe_ok.mp h
    exact absurd rfl hp
  | stat | data | id => cases h

theorem portWrite_changes_phase {off bytes : Nat} {v : Word} {s t : State} (h : portWrite off bytes v s = .ok t)
    (hp : t.phase ≠ s.phase) : off = s.params.offCtrl ∧ bytes = 4 ∧ writeCtrl v s = .ok t := by
  unfold portWrite at h
  cases hr : accessReg s.params off bytes with
  | error f => simp [hr] at h
  | ok r =>
    simp only [hr] at h
    obtain ⟨hbytes, -, -, hat⟩ := accessReg_ok.mp hr
    obtain rfl := writeReg_changes_phase h hp
    exact ⟨offset_of_regAt hat, hbytes, h⟩

theorem memWrite_changes_phase {addr bytes : Nat} {v : Word} {s t : State} (h : memWrite addr bytes v s = .ok t)
    (hp : t.phase ≠ s.phase) :
    addr = s.params.base + s.params.offCtrl ∧ bytes = 4 ∧ writeCtrl v s = .ok t := by
  by_cases hbase : s.params.base ≤ addr
  · obtain ⟨off, rfl⟩ := Nat.exists_eq_add_of_le hbase
    rw [memWrite_base_add] at h
    obtain ⟨rfl, hctrl⟩ := portWrite_changes_phase h hp
    exact ⟨rfl, hctrl⟩
  · rw [memWrite_below_base bytes v (Nat.not_le.mp hbase)] at h
    cases h

theorem portRead_phase {off bytes : Nat} {w : Word} {s t : State} (h : portRead off bytes s = .ok (w, t)) :
    t.phase = s.phase := by
  obtain rfl | rfl := portRead_state h <;> rfl

theorem memRead_phase {addr bytes : Nat} {w : Word} {s t : State} (h : memRead addr bytes s = .ok (w, t)) :
    t.phase = s.phase := by
  obtain rfl | rfl := memRead_state h <;> rfl

theorem hostStore_ok {access : Except Fault State} {t : State} (h : hostStore access = .ok t) :
    ∃ u, access = .ok u ∧ t = u.hostAdvance := by
  cases access with
  | error f => cases h
  | ok u => exact ⟨u, rfl, (Except.ok.inj h).symm⟩

theorem hostLoad_ok {x : Fin 16} {access : Except Fault (Word × State)} {t : State} (h : hostLoad x access = .ok t) :
    ∃ w u, access = .ok (w, u) ∧ t = u.hostAssign x w := by
  cases access with
  | error f => cases h
  | ok r => exact ⟨r.1, r.2, rfl, (Except.ok.inj h).symm⟩

theorem hostPoll_phase {off bit : Nat} {b : Bool} {s t : State} (h : hostPoll off bit b s = .ok t) :
    t.phase = s.phase := by
  unfold hostPoll at h
  cases hr : portRead off 4 s with
  | error f => simp [hr] at h
  | ok r =>
    simp only [hr, Except.ok.injEq] at h
    rw [← portRead_phase hr, ← h]
    split_ifs <;> rfl

theorem hostCompute_phase {x m : Fin 16} {f : Word → Word} {s t : State} (h : hostCompute x m f s = .ok t) :
    t.phase = s.phase := by
  unfold hostCompute at h
  cases hr : s.host.readVar m with
  | error e => simp [hr] at h
  | ok w =>
    simp only [hr, Except.ok.injEq] at h
    rw [← h, State.hostAssign_phase]

theorem hostBranch_phase {x : Fin 16} {test : Word → Bool} {l : Nat} {s t : State}
    (h : hostBranch x test l s = .ok t) : t.phase = s.phase := by
  unfold hostBranch at h
  cases hr : s.host.readVar x with
  | error e => simp [hr] at h
  | ok w =>
    simp only [hr, Except.ok.injEq] at h
    rw [← h]
    split_ifs <;> rfl

theorem hostStmt_changes_phase {st : HostStmt} {s t : State} (h : hostStmt st s = .ok t) (hp : t.phase ≠ s.phase) :
    ∃ (v : Word) (u : State),
      (st = .wr s.params.offCtrl v ∨ st = .memWrite (s.params.base + s.params.offCtrl) 4 v) ∧
      writeCtrl v s = .ok u ∧ t = u.hostAdvance := by
  cases st with
  | wr off v =>
    obtain ⟨u, hu, rfl⟩ := hostStore_ok h
    obtain ⟨rfl, -, hctrl⟩ := portWrite_changes_phase hu hp
    exact ⟨v, u, .inl rfl, hctrl, rfl⟩
  | memWrite addr bytes v =>
    obtain ⟨u, hu, rfl⟩ := hostStore_ok h
    obtain ⟨rfl, rfl, hctrl⟩ := memWrite_changes_phase hu hp
    exact ⟨v, u, .inr rfl, hctrl, rfl⟩
  | rd x off =>
    obtain ⟨w, u, hu, rfl⟩ := hostLoad_ok h
    exact absurd (portRead_phase hu) hp
  | memRead x addr bytes =>
    obtain ⟨w, u, hu, rfl⟩ := hostLoad_ok h
    exact absurd (memRead_phase hu) hp
  | poll off bit b => exact absurd (hostPoll_phase h) hp
  | andi x m imm => exact absurd (hostCompute_phase h) hp
  | addi x m imm => exact absurd (hostCompute_phase h) hp
  | beqi x imm l => exact absurd (hostBranch_phase h) hp
  | bnei x imm l => exact absurd (hostBranch_phase h) hp
  | li | j | halt | clearNotified =>
    cases h
    exact absurd rfl hp
  | suspend =>
    simp only [hostStmt, Except.ok.injEq] at h
    refine absurd ?_ hp
    rw [← h]
    split_ifs <;> rfl

theorem hostMove_changes_phase {s : State} (hp : (hostMove s).phase ≠ s.phase) :
    ∃ (v : Word) (u : State),
      (s.host.current = some (.wr s.params.offCtrl v) ∨
        s.host.current = some (.memWrite (s.params.base + s.params.offCtrl) 4 v)) ∧
      writeCtrl v s = .ok u ∧ hostMove s = u.hostAdvance := by
  unfold hostMove at hp ⊢
  cases hc : s.host.current with
  | none => simp [hc] at hp
  | some st =>
    cases hst : hostStmt st s with
    | error f => simp [hc, hst] at hp
    | ok t =>
      simp only [hc, hst] at hp ⊢
      simpa only [Option.some.injEq] using hostStmt_changes_phase hst hp

theorem handlerMove_phase (s : State) : (handlerMove s).phase = s.phase := by
  obtain h | ⟨-, -, -, h⟩ := handlerMove_cases s
  · rw [h]
  · rw [h]
    rfl

/-! ### The statements -/

/-- Settles O11: the Engine's move in BUSY is the operation, which ends in DONE of itself, and no other move enters
DONE. -/
theorem completionStepEntersDone : Obligations.CompletionStepEntersDone := by
  constructor
  · intro s i hf hm hbusy hw
    obtain ⟨t, hexec⟩ := exec_next i s.popMove
    have hdone := exec_phase hexec
    have hwt : t.params.wellFormed = true := (congrArg Params.wellFormed (exec_params hexec)).trans hw
    have hstep : step s = .next t := by
      rw [step_of_engine hf hm, engineMove_busy (s := s.popMove) hbusy, hexec]
    refine ⟨t, hstep, hexec, hdone, fun d => ⟨?_, ?_, ?_, ?_, ?_⟩⟩
    · rw [getLsbD_statWord_done hwt, hdone, Phase.isDone_done]
    · rw [getLsbD_statWord_ready hwt, hdone, Phase.ready_done]
    · rintro rfl
      rw [getLsbD_statWord_presence hwt, if_pos hdone]
    · rintro rfl
      rw [dataWord_readBit hdone, getLsbD_setBit_same _ _ _ (by decide)]
    · rintro rfl
      rw [dataWord_readByte hdone, low_byte_append]
  · intro s t i hstep hdone hnot
    exact step_enters_done hstep hdone hnot

/-- Settles O12: at rest the Engine's move and the handler's keep the phase, and of the host statements only a CTRL
write can change it. -/
theorem noEngineStepAtRest : Obligations.NoEngineStepAtRest := by
  intro s hrest
  have hdisabled : s.phase.engineEnabled = false := by
    obtain h | ⟨op, h⟩ | h := hrest <;> rw [h] <;> rfl
  refine ⟨engineMove_not_enabled hdisabled, fun t hstep hleaves => ?_⟩
  obtain ⟨hf, -⟩ := step_cases hstep
  cases hm : s.nextMove with
  | host =>
    rw [step_of_host hf hm] at hstep
    obtain rfl := Host.Outcome.next.inj hstep
    exact ⟨rfl, hostMove_changes_phase hleaves⟩
  | handler =>
    rw [step_of_handler hf hm] at hstep
    obtain rfl := Host.Outcome.next.inj hstep
    exact absurd (handlerMove_phase s.popMove) hleaves
  | engine =>
    rw [step_of_engine hf hm, engineMove_not_enabled (s := s.popMove) hdisabled] at hstep
    obtain rfl := Host.Outcome.next.inj hstep
    exact absurd rfl hleaves

/-- Settles O13: the Engine's move leads to IDLE from RECOVER only, where the block starts. -/
theorem readyStepEntersIdle : Obligations.ReadyStepEntersIdle := by
  refine ⟨?_, ?_, rfl, fun d => getLsbD_statWord_ready (s := .reset) Params.default_wellFormed d⟩
  · intro s hf hm hrecover hw
    constructor
    · rw [step_of_engine hf hm, engineMove_recover (s := s.popMove) hrecover]
    · intro d
      exact getLsbD_statWord_ready (s := s.popMove.setPhase .idle) hw d
  · intro s t hstep hm hnot hidle
    obtain ⟨hf, -⟩ := step_cases hstep
    rw [step_of_engine hf hm] at hstep
    obtain ⟨op, -, hdone⟩ | ⟨hrecover, -⟩ | ⟨-, hsame⟩ := engineMove_phase hstep
    · simp [hidle] at hdone
    · exact hrecover
    · exact absurd (hsame.symm.trans hidle) hnot

/-- Settles O35: each cell of R102 is the rule of its write or move in that phase. -/
theorem phaseTransitionTable : Obligations.PhaseTransitionTable := by
  intro s v hw
  rw [portWrite_offInst hw, portWrite_offCtrl hw]
  refine ⟨?_, writeCtrl_reservedBits, ?_, ?_, ?_, fun off bytes w t hread => portRead_phase hread⟩
  · cases hp : s.phase with
    | idle => exact writeInst_idle v hp
    | busy | done | recover | resetHeld => exact writeInst_not_idle v (by simp [hp])
  · intro hmask
    cases hgo : v.getLsbD s.params.ctrlGo <;> cases hreset : v.getLsbD s.params.ctrlReset
    · rw [writeCtrl_eq_writeClearGo hmask hgo hreset]
      cases hp : s.phase with
      | idle => exact (congrArg _ (writeClearGo_same (.inl hp))).trans (congrArg Except.ok hp)
      | busy op => rw [writeClearGo_busy hp]; rfl
      | done op => rw [writeClearGo_recover (.inl ⟨op, hp⟩)]; rfl
      | recover => exact (congrArg _ (writeClearGo_same (.inr hp))).trans (congrArg Except.ok hp)
      | resetHeld => rw [writeClearGo_recover (.inr hp)]; rfl
    · rw [writeCtrl_eq_writeSoftReset hmask hgo hreset]
      exact congrArg Except.ok (writeSoftReset_phase s)
    · rw [writeCtrl_eq_writeGo hmask hgo hreset]
      cases hp : s.phase with
      | idle =>
        cases hdec : dec s.params s.instReg with
        | some op => rw [writeGo_decoded hp hdec]; rfl
        | none => rw [writeGo_reserved hp hdec]; rfl
      | busy | done | recover | resetHeld => rw [writeGo_not_idle (by simp [hp])]; rfl
    · rw [writeCtrl_goAndReset hmask hgo hreset]
      rfl
  · intro t hwrite
    obtain ⟨hreset, rfl⟩ | ⟨hreset, hother⟩ := writeCtrl_ok_reset hwrite
    · rw [hreset]
      cases hp : s.phase with
      | busy op => exact writeSoftReset_busLog_busy hp
      | idle | done | recover | resetHeld =>
        rw [writeSoftReset_busLog_not_busy (by simp [hp])]
        exact (List.append_nil _).symm
    · rw [hreset, hother.elim writeGo_busLog writeClearGo_busLog]
      exact (List.append_nil _).symm
  · intro t hmove
    obtain ⟨op, hbusy, hdone⟩ | ⟨hrecover, hidle⟩ | ⟨hdisabled, hsame⟩ := engineMove_phase hmove
    · rw [hbusy, hdone]
    · rw [hrecover, hidle]
    · cases hp : s.phase with
      | busy | recover => simp [hp] at hdisabled
      | idle | done | resetHeld => rw [hsame, hp]

/-- Settles O36: storing a word leaves the phase, so the second write finds IDLE too. -/
theorem instWriteStoresOnlyInIdle : Obligations.InstWriteStoresOnlyInIdle := by
  intro s v v' hw
  rw [portWrite_offInst hw]
  refine ⟨fun hidle => ⟨writeInst_idle v hidle, ?_⟩, writeInst_not_idle v⟩
  exact (portWrite_offInst (s := s.setInst v) hw v').trans (writeInst_idle (s := s.setInst v) v' hidle)

/-- Settles O37: Go in IDLE is decided by what INST decodes to, and BUSY shows neither flag. -/
theorem goAcceptedInIdle : Obligations.GoAcceptedInIdle := by
  intro s v hw hmask hgo hreset hidle
  rw [portWrite_offCtrl hw, writeCtrl_eq_writeGo hmask hgo hreset]
  refine ⟨fun op hdec => ⟨writeGo_decoded hidle hdec, fun d => ⟨?_, ?_⟩⟩, writeGo_reserved hidle⟩
  · exact getLsbD_statWord_ready (s := s.setPhase (.busy op)) hw d
  · exact getLsbD_statWord_done (s := s.setPhase (.busy op)) hw d

/-- Settles O38: RESET is looked at before the phase, so GO with it faults in every phase. -/
theorem goRefusedOrJoinedWithReset : Obligations.GoRefusedOrJoinedWithReset := by
  intro s v hw hmask hgo
  rw [portWrite_offCtrl hw]
  constructor
  · intro hreset hidle
    rw [writeCtrl_eq_writeGo hmask hgo hreset, writeGo_not_idle hidle]
  · intro hreset
    exact writeCtrl_goAndReset hmask hgo hreset

/-- Settles O39: ClearGo by phase is R107, and in RECOVER no result and no flag shows. -/
theorem clearGoByPhase : Obligations.ClearGoByPhase := by
  intro s v hw hmask hgo hreset
  rw [portWrite_offCtrl hw, writeCtrl_eq_writeClearGo hmask hgo hreset]
  refine ⟨fun hidle => writeClearGo_same (.inl hidle), fun op => writeClearGo_busy,
    fun op hdone => ⟨writeClearGo_recover (.inl ⟨op, hdone⟩), fun d => ⟨?_, ?_, ?_, ?_⟩⟩,
    fun hrecover => writeClearGo_same (.inr hrecover), fun hheld => writeClearGo_recover (.inr hheld)⟩
  · exact getLsbD_statWord_ready (s := s.setPhase .recover) hw d
  · exact getLsbD_statWord_done (s := s.setPhase .recover) hw d
  · exact getLsbD_statWord_presence (s := s.setPhase .recover) hw d
  · exact dataWord_none (s := s.setPhase .recover) (by simp) (by simp) d

end Sys2Proof.Machine

/-! ## The five bus operations (41_bus_primitives.md R141 to R145)

The next state of each operation, what Status and Data show of it, then the statements about the operations. -/

namespace Sys2Proof.Machine

/-! ### The next state of each operation -/

theorem exec_owReset (s : State) :
    exec .owReset s = .next { s with
      busAnswers := s.busAnswers.tail
      busLog := s.busLog ++ [.resetPulse s.presenceAnswer]
      presenceFlag := presenceOf s.params s.presenceAnswer
      phase := .done .owReset } := rfl

theorem exec_owRdbit (s : State) :
    exec .owRdbit s = .next { s with
      busAnswers := s.busAnswers.tail
      busLog := s.busLog ++ [.readSlot s.readAnswer]
      rxData := bitByte (Config.draw s.draws) s.readAnswer
      draws := s.draws + 1
      phase := .done .owRdbit } := rfl

theorem exec_owWrbit (b : Bool) (s : State) :
    exec (.owWrbit b) s = .next { s with
      busLog := s.busLog ++ [.writeSlot b]
      phase := .done (.owWrbit b) } := rfl

/-- The eight slots of R144's loop, taken together. -/
theorem exec_owRdbyte (s : State) :
    exec .owRdbyte s = .next { s with
      busAnswers := s.busAnswers.drop 8
      busLog := s.busLog ++ (s.slotBits 8).map .readSlot
      rxData := bitsByte (s.slotBits 8)
      phase := .done .owRdbyte } := by
  change Host.Outcome.next (((s.afterReadSlots 8).setRx _).setPhase _) = _
  rw [State.afterReadSlots_eq]
  rfl

theorem exec_owWrbyte (v : Byte) (s : State) :
    exec (.owWrbyte v) s = .next { s with
      busLog := s.busLog ++ (byteBits v).map .writeSlot
      phase := .done (.owWrbyte v) } := rfl

/-! ### What Status and Data show of a completed operation -/

/-- Status shows Done after every operation (R28, R140). -/
theorem getLsbD_statWord_done_of_exec {i : Instr} {s t : State} (h : exec i s = .next t)
    (hw : s.params.wellFormed = true) (d : Word) : (statWord t d).getLsbD s.params.statDone = true := by
  have hp : t.params = s.params := exec_params h
  rw [← hp] at hw ⊢
  rw [getLsbD_statWord_done hw, exec_phase h, Phase.isDone_done]

/-- Status shows the presence flag after a reset, and a drawn bit after the other operations (R28). -/
theorem getLsbD_statWord_presence_of_exec {i : Instr} {s t : State} (h : exec i s = .next t)
    (hw : s.params.wellFormed = true) (d : Word) :
    (statWord t d).getLsbD s.params.statPresence =
      if i = .owReset then t.presenceFlag else d.getLsbD s.params.statPresence := by
  have hp : t.params = s.params := exec_params h
  rw [← hp] at hw ⊢
  simp only [getLsbD_statWord_presence hw, exec_phase h, Phase.done.injEq]

/-- An operation that reads nothing leaves Data all drawn (R29). -/
theorem dataWord_of_exec {i : Instr} {s t : State} (h : exec i s = .next t) (hbit : i ≠ .owRdbit)
    (hbyte : i ≠ .owRdbyte) (d : Word) : dataWord t d = d := by
  have hp : t.phase = .done i := exec_phase h
  exact dataWord_none (by simpa [hp] using hbit) (by simpa [hp] using hbyte) d

/-- After a bit is read Data has it in bit 0, under the drawn word's other bits (R29). -/
theorem getLsbD_dataWord_readBit {s : State} (h : s.phase = .done .owRdbit) (d : Word) (i : Nat) :
    (dataWord s d).getLsbD i = if i = 0 then s.rxData.getLsbD 0 else d.getLsbD i := by
  rw [dataWord_readBit h, getLsbD_setBit _ _ _ _ (by decide)]

/-! ### Read slots and reserved words -/

/-- The i-th bit read is the pending answer at i, else what the line says after the slots before it (R41, R144). -/
theorem State.getD_slotBits (s : State) {n i : Nat} (h : i < n) :
    (s.slotBits n).getD i false =
      (s.busAnswers.drop i).headD (Config.busRead (s.busLog ++ ((s.slotBits n).take i).map .readSlot)) := by
  rw [← State.getElem_slotBits n i s h, List.getD_eq_getElem]

/-- The words between the two WriteBit words and the first WriteByte word are reserved (R85). -/
theorem dec_default_writeBit_reserved {w : Word} (hlo : 0x00000E02#32 ≤ w) (hhi : w ≤ 0x00000EFF#32) :
    dec Params.default w = none := by
  rw [Laws.dec_default_eq_none_iff, Laws.mem_defaultLegalWords]
  have hlo' : 0xE02 ≤ w.toNat := hlo
  have hhi' : w.toNat ≤ 0xEFF := hhi
  omega

/-! ### The statements -/

/-- Settles O23: the completion step is R141's next state, and the first code tested in R83 is Reset's. -/
theorem resetOperationResult : Obligations.ResetOperationResult := by
  intro s
  have hexec := exec_owReset s
  refine ⟨BitVec.or_zero, if_pos rfl, _, hexec, rfl, fun hw d => ⟨?_, ?_⟩⟩
  · exact getLsbD_statWord_presence_of_exec hexec hw d
  · exact getLsbD_statWord_done_of_exec hexec hw d

/-- Settles O24: bit 0 of the latch is the line's answer, and Data shows that bit alone. -/
theorem readBitOperationResult : Obligations.ReadBitOperationResult := by
  intro s
  have hexec := exec_owRdbit s
  refine ⟨BitVec.or_zero, _, hexec, rfl, fun d => ⟨?_, fun i hi => ?_⟩,
    getLsbD_statWord_done_of_exec hexec⟩
  · rw [getLsbD_dataWord_readBit rfl, if_pos rfl, bitByte_getLsbD_zero]
  · rw [getLsbD_dataWord_readBit rfl, if_neg (by omega)]

/-- Settles O25: WriteBit has no result to show, and the words above its two meet no branch of R83. -/
theorem writeBitOperationResult : Obligations.WriteBitOperationResult := by
  constructor
  · intro s b
    have hexec := exec_owWrbit b s
    refine ⟨rfl, _, hexec, rfl, fun hw d => ⟨?_, ?_, ?_⟩⟩
    · exact getLsbD_statWord_done_of_exec hexec hw d
    · exact getLsbD_statWord_presence_of_exec hexec hw d
    · exact dataWord_of_exec hexec nofun nofun d
  · intro w hlo hhi
    have hdec : dec Params.default w = none := dec_default_writeBit_reserved hlo hhi
    exact ⟨hdec, fun s hparams hidle hinst => writeGo_reserved hidle (by rw [hparams, hinst, hdec])⟩

/-- Settles O26: the bits are those of the eight read slots, and Data shows the byte they make. -/
theorem readByteOperationResult : Obligations.ReadByteOperationResult := by
  intro s
  have hexec := exec_owRdbyte s
  refine ⟨BitVec.or_zero, _, s.slotBits 8, hexec, s.length_slotBits 8, fun i hi => s.getD_slotBits hi,
    getLsbD_bitsByte _, rfl, fun d => ⟨?_, fun i hi => ?_⟩, getLsbD_statWord_done_of_exec hexec⟩
  · rw [dataWord_readByte rfl, low_byte_append]
  · exact getLsbD_dataWord_readByte_high rfl d hi

/-- Settles O27: the slots are the bits of the byte in order, written out. -/
theorem writeByteOperationResult : Obligations.WriteByteOperationResult := by
  intro s v
  have hexec := exec_owWrbyte v s
  exact ⟨rfl, _, hexec, rfl, getLsbD_statWord_done_of_exec hexec⟩

end Sys2Proof.Machine

/-! ## The CRC-8 validator (42_crc8.md R173, R174)

How the CRC grows by a byte and what the verdict compares, then the statements about the validator. -/

namespace Sys2Proof.Machine

/-! ### The CRC of a message -/

@[simp] theorem crc8_nil : crc8 [] = 0#8 := rfl

/-- One more byte is one more table step (R173). -/
theorem crc8_append_singleton (bs : List Byte) (b : Byte) : crc8 (bs ++ [b]) = crc8Entry (b ^^^ crc8 bs) := by
  rw [crc8, List.foldl_concat]
  rfl

theorem crc8_replicate_zero (n : Nat) : crc8 (List.replicate n 0x00#8) = 0x00#8 := by
  induction n with
  | zero => exact crc8_nil
  | succ n ih =>
    have hentry : crc8Entry 0x00#8 = 0x00#8 := by decide
    rw [List.replicate_succ', crc8_append_singleton, ih, BitVec.xor_self, hentry]

/-- The CRC after each byte of R173's worked example. -/
theorem crc8_workedExample_prefixes :
    ((List.range 8).map fun n =>
        crc8 ([0x91#8, 0x01#8, 0x7F#8, 0xFF#8, 0x00#8, 0xFF#8, 0x00#8, 0x10#8].take (n + 1))) =
      [0x4F#8, 0x59#8, 0xFE#8, 0x5E#8, 0xC4#8, 0x9E#8, 0x0E#8, 0x82#8] := by decide

/-! ### The verdict on a reading -/

theorem Reading.crcOk_iff (r : Reading) : r.crcOk = true ↔ r.crcCalc = r.crc := beq_iff_eq

/-- The calculated CRC does not cover the CRC byte. -/
@[simp] theorem Reading.crcCalc_setCrc (r : Reading) (c : Byte) : ({ r with crc := c } : Reading).crcCalc = r.crcCalc :=
  rfl

/-- Given its first eight bytes, a reading is valid with one CRC byte only. -/
theorem Reading.crcOk_setCrc_eq_false {r : Reading} (h : r.crcOk = true) {c : Byte} (hc : c ≠ r.crc) :
    ({ r with crc := c } : Reading).crcOk = false := by
  rw [Bool.eq_false_iff, ne_eq, Reading.crcOk_iff, Reading.crcCalc_setCrc, r.crcOk_iff.mp h]
  exact hc.symm

/-- Flipping bit i of a byte changes it, at bit i. -/
theorem xor_oneBit_ne_self (b : Byte) {i : Nat} (hi : i < 8) : b ^^^ (1#8 <<< i) ≠ b := by
  intro h
  have hbit : (b ^^^ (1#8 <<< i)).getLsbD i = !b.getLsbD i := by simp [hi]
  rw [h] at hbit
  exact Bool.not_ne_self _ hbit.symm

/-! ### The statements -/

/-- Settles O52: the step law is the fold's, and the messages of fixed bytes are computed. -/
theorem crcIsOneTableStepPerByte : Obligations.CrcIsOneTableStepPerByte := by
  have hones : crc8 (List.replicate 8 0xFF#8) = 0xC9#8 := by decide
  exact ⟨crc8_nil, crc8_append_singleton, fun _ => rfl, crc8_workedExample_prefixes, crc8_replicate_zero 8, hones⟩

/-- Settles O53: a flipped bit makes the CRC byte another byte, and only the calculated one is valid; the worked
example's calculated CRC is 0x82. -/
theorem crcVerdictComparesTheLastByte : Obligations.CrcVerdictComparesTheLastByte := by
  have hworked :
      (⟨0x91#8, 0x01#8, 0x7F#8, 0xFF#8, 0x00#8, 0xFF#8, 0x00#8, 0x10#8, 0x82#8⟩ : Reading).crcOk = true :=
    (Reading.crcOk_iff _).mpr (List.getElem_of_eq crc8_workedExample_prefixes (i := 7) (by decide))
  refine ⟨Reading.crcOk_iff, ?_, fun r i hi hok => ?_, hworked, ?_⟩
  · exact (Reading.crcOk_iff _).mpr (crc8_replicate_zero 8)
  · exact Reading.crcOk_setCrc_eq_false hok (xor_oneBit_ne_self r.crc hi)
  · exact Reading.crcOk_setCrc_eq_false hworked (by decide)

end Sys2Proof.Machine

/-! ## The temperature decoder (43_temperature_decoder.md R191 to R195)

The raw value, its sign and its magnitude as numbers, then what the integer part and the fraction are for each sign and
each resolution, then the statements about the decoder. -/

namespace Sys2Proof.Machine

/-! ### The raw value, its sign and its magnitude -/

theorem rawTemp_eq_shiftLeft_or (lsb msb : Byte) :
    rawTemp lsb msb = (msb.setWidth 16 <<< 8) ||| lsb.setWidth 16 := by
  rw [← BitVec.setWidth_append_eq_shiftLeft_setWidth_or, BitVec.setWidth_eq, rawTemp]

theorem msb_rawTemp (lsb msb : Byte) : (rawTemp lsb msb).msb = negTemp msb :=
  BitVec.msb_append

/-- The sign is set exactly from 0x8000 up (R192). -/
theorem negTemp_eq_true_iff (lsb msb : Byte) : negTemp msb = true ↔ 0x8000 ≤ (rawTemp lsb msb).toNat := by
  rw [← msb_rawTemp lsb, BitVec.msb_eq_true_iff_two_mul_ge]
  omega

/-- The magnitude is the two's complement negation of the raw value (R193). -/
theorem magTemp_eq_neg (raw : Half) : magTemp raw = -raw := by
  have hones : 0xFFFF#16 = BitVec.allOnes 16 := by decide
  rw [magTemp, hones, BitVec.xor_allOnes, BitVec.neg_eq_not_add]

/-- Of a raw value other than 0, the magnitude is what is missing to 0x10000. -/
theorem toNat_magTemp {raw : Half} (h : 0 < raw.toNat) : (magTemp raw).toNat = 0x10000 - raw.toNat := by
  rw [magTemp_eq_neg, BitVec.toNat_neg, Nat.mod_eq_of_lt (by omega)]

/-! ### The integer part -/

/-- A value shifted right by 4 is its sixteenth, rounded down; the sign bit is clear. -/
theorem toInt_ushiftRight_four (v : Half) : (v >>> 4).toInt = (v.toNat / 16 : Nat) := by
  have hdiv : (v >>> 4).toNat = v.toNat / 16 := by rw [BitVec.toNat_ushiftRight, Nat.shiftRight_eq_div_pow]
  rw [BitVec.toInt_eq_toNat_of_lt (by omega), hdiv]

/-- The integer part of a reading that is not negative. -/
theorem toInt_intPartOf_false (raw : Half) : (intPartOf false raw).toInt = (raw.toNat / 16 : Nat) :=
  toInt_ushiftRight_four raw

/-- The integer part of a negative reading; a sixteenth of the magnitude is small enough to be negated exactly. -/
theorem toInt_intPartOf_true (raw : Half) : (intPartOf true raw).toInt = -(((magTemp raw).toNat / 16 : Nat) : Int) := by
  have hneg : intPartOf true raw = -(magTemp raw >>> 4) := rfl
  rw [hneg, BitVec.toInt_neg, toInt_ushiftRight_four, Int.bmod_eq_of_le (by omega) (by omega)]

/-! ### The resolution and the fraction -/

theorem resOutOfRange_eq_decide (res : Byte) : resOutOfRange res = decide (res ∉ [9#8, 10#8, 11#8, 12#8]) := by
  rw [Bool.eq_iff_iff]
  simp [resOutOfRange, and_assoc]

/-- A listed resolution is the effective one; every other counts as 9 (R194). -/
theorem resEff_cases (res : Byte) :
    (res ∈ [9#8, 10#8, 11#8, 12#8] ∧ resEff res = res) ∨ (res ∉ [9#8, 10#8, 11#8, 12#8] ∧ resEff res = 9#8) := by
  rw [resEff, resOutOfRange_eq_decide]
  by_cases h : res ∈ [9#8, 10#8, 11#8, 12#8]
  · exact .inl ⟨h, if_neg fun hout => absurd h (of_decide_eq_true hout)⟩
  · exact .inr ⟨h, if_pos (decide_eq_true h)⟩

/-- The resolutions that reach each of the three thresholds above 9. -/
theorem resEff_thresholds (res : Byte) :
    (10#8 ≤ resEff res ↔ res ∈ [10#8, 11#8, 12#8]) ∧ (11#8 ≤ resEff res ↔ res ∈ [11#8, 12#8]) ∧
      (resEff res = 12#8 ↔ res = 12#8) := by
  obtain ⟨hmem, heff⟩ | ⟨hout, heff⟩ := resEff_cases res
  · simp only [List.mem_cons, List.not_mem_nil, or_false] at hmem
    rcases hmem with rfl | rfl | rfl | rfl <;> decide
  · simp only [List.mem_cons, List.not_mem_nil, or_false, not_or] at hout
    obtain ⟨-, h10, h11, h12⟩ := hout
    simp [heff, h10, h11, h12]

/-- The four terms of the fraction add up without overflow (R195). -/
theorem toNat_fracOf (raw : Half) (eff : Byte) :
    (fracOf raw eff).toNat =
      (if raw.getLsbD 3 = true then 5000 else 0) +
      (if raw.getLsbD 2 = true ∧ 10#8 ≤ eff then 2500 else 0) +
      (if raw.getLsbD 1 = true ∧ 11#8 ≤ eff then 1250 else 0) +
      (if raw.getLsbD 0 = true ∧ eff = 12#8 then 625 else 0) := by
  simp only [fracOf, Bool.and_eq_true, decide_eq_true_eq, beq_iff_eq]
  split_ifs <;> rfl

/-! ### The statements -/

/-- Settles O56: a set sign makes the raw value at least 0x8000, so its magnitude is 0x10000 minus it, and a sixteenth
of either is a number the signed output holds. -/
theorem decoderIntegerPart : Obligations.DecoderIntegerPart := by
  refine ⟨fun lsb msb => ⟨rawTemp_eq_shiftLeft_or lsb msb, ?_⟩, fun lsb msb res hneg => ?_,
    fun lsb msb res hneg => ⟨?_, ?_⟩, by decide⟩
  · rw [← msb_rawTemp lsb, BitVec.msb_eq_getLsbD_last]
  · rw [decodeTemperature, hneg, toInt_intPartOf_false]
  · have hhigh : 0x8000 ≤ (rawTemp lsb msb).toNat := (negTemp_eq_true_iff lsb msb).mp hneg
    exact toNat_magTemp (by omega)
  · rw [decodeTemperature, hneg, toInt_intPartOf_true]

/-- Settles O57: the effective resolution reaches a threshold exactly for the resolutions listed at it. -/
theorem decoderFractionByResolution : Obligations.DecoderFractionByResolution := by
  intro lsb msb res
  obtain ⟨h10, h11, h12⟩ := resEff_thresholds res
  refine ⟨resOutOfRange_eq_decide res, ?_⟩
  simp only [decodeTemperature, toNat_fracOf, h10, h11, h12]

end Sys2Proof.Machine

/-! ## The Host (45_host_protocol.md R221, R229)

What each statement of the Host does, by whether the variable it reads is written and by how its access ends; then the
statements about the Host and about the configuration. -/

namespace Sys2Proof.Machine

/-! ### Variables -/

theorem HostState.readVar_of_written {x : Fin 16} {h : HostState} {v : Word} (hx : h.vars[x] = some v) :
    h.readVar x = .ok v := by
  simp only [HostState.readVar, hx]

theorem HostState.readVar_of_unwritten {x : Fin 16} {h : HostState} (hx : h.vars[x] = none) :
    h.readVar x = .error .hostUnwritten := by
  simp only [HostState.readVar, hx]

/-- The sum of R221, "modulo 2^32", is the sum of words. -/
theorem add_eq_ofNat_mod (v w : Word) : v + w = BitVec.ofNat 32 ((v.toNat + w.toNat) % 2 ^ 32) := by
  rw [← BitVec.toNat_add, BitVec.ofNat_toNat, BitVec.setWidth_eq]

/-! ### Statements that compute or branch -/

section
variable {s : State} {m : Fin 16}

theorem hostCompute_of_written (x : Fin 16) (f : Word → Word) {v : Word} (hm : s.host.vars[m] = some v) :
    hostCompute x m f s = .ok (s.hostAssign x (f v)) := by
  simp [hostCompute, HostState.readVar_of_written hm]

theorem hostCompute_of_unwritten (x : Fin 16) (f : Word → Word) (hm : s.host.vars[m] = none) :
    hostCompute x m f s = .error .hostUnwritten := by
  simp [hostCompute, HostState.readVar_of_unwritten hm]

/-- A branch moves the statement index and nothing else: to the label where the test holds, else on. -/
theorem hostBranch_of_written {test : Word → Bool} (l : Nat) {v : Word} {p : Prop} [Decidable p]
    (hm : s.host.vars[m] = some v) (htest : test v = true ↔ p) :
    hostBranch m test l s = .ok (s.setHost { s.host with hpc := if p then l else s.host.hpc + 1 }) := by
  simp only [hostBranch, HostState.readVar_of_written hm, htest]
  split_ifs <;> rfl

theorem hostBranch_of_unwritten (test : Word → Bool) (l : Nat) (hm : s.host.vars[m] = none) :
    hostBranch m test l s = .error .hostUnwritten := by
  simp [hostBranch, HostState.readVar_of_unwritten hm]

end

/-! ### Statements that access the block -/

section
variable {s t : State} {off : Nat}

theorem portRead_host {bytes : Nat} {w : Word} (h : portRead off bytes s = .ok (w, t)) : t.host = s.host := by
  obtain rfl | rfl := portRead_state h <;> rfl

theorem portWrite_host {bytes : Nat} {v : Word} (h : portWrite off bytes v s = .ok t) : t.host = s.host := by
  obtain ⟨-, -, hhost, -⟩ := (portWrite_ok h).frame
  exact hhost

theorem hostStmt_rd_of_ok (x : Fin 16) {w : Word} (h : portRead off 4 s = .ok (w, t)) :
    hostStmt (.rd x off) s = .ok (t.setHost
      { s.host with vars := s.host.vars.set x (some w), hpc := s.host.hpc + 1 }) := by
  rw [hostStmt, h, ← portRead_host h]
  rfl

/-- POLL goes on where the bit read is the one waited for; else it stays, and the read has been made. -/
theorem hostStmt_poll_of_ok (bit : Nat) (b : Bool) {w : Word} (h : portRead off 4 s = .ok (w, t)) :
    hostStmt (.poll off bit b) s = .ok (t.setHost
      { s.host with hpc := if w.getLsbD bit = b then s.host.hpc + 1 else s.host.hpc }) := by
  simp only [hostStmt, hostPoll, h, ← portRead_host h]
  split_ifs <;> rfl

theorem hostStmt_wr_of_ok {v : Word} (h : portWrite off 4 v s = .ok t) :
    hostStmt (.wr off v) s = .ok (t.setHost { s.host with hpc := s.host.hpc + 1 }) := by
  rw [hostStmt, h, ← portWrite_host h]
  rfl

theorem hostStmt_rd_of_error (x : Fin 16) {f : Fault} (h : portRead off 4 s = .error f) :
    hostStmt (.rd x off) s = .error f := by
  rw [hostStmt, h, hostLoad]

theorem hostStmt_poll_of_error (bit : Nat) (b : Bool) {f : Fault} (h : portRead off 4 s = .error f) :
    hostStmt (.poll off bit b) s = .error f := by
  simp only [hostStmt, hostPoll, h]

theorem hostStmt_wr_of_error {v : Word} {f : Fault} (h : portWrite off 4 v s = .error f) :
    hostStmt (.wr off v) s = .error f := by
  rw [hostStmt, h, hostStore]

end

/-- Where the run has ended, a turn of the Host or of its handler only passes. -/
theorem step_of_hostEnded {s : State} (h : HostEnded s) (hm : s.nextMove = .host ∨ s.nextMove = .handler) :
    step s = .next s.popMove := by
  obtain ⟨hfault, hhalt⟩ := h
  rcases hm with hm | hm
  · rw [step_of_host hfault hm, hostMove_halt (s := s.popMove) hhalt]
  · have hstopped : s.popMove.host.running = false := HostState.running_halt hhalt
    rw [step_of_handler hfault hm, handlerMove_of_not_running hstopped]

/-! ### Configuration -/

theorem configByte_of_not_listed {res : Byte} (h : res ∉ [9#8, 10#8, 11#8, 12#8]) : configByte res = 0x1F#8 := by
  simp only [List.mem_cons, List.not_mem_nil, or_false, not_or] at h
  obtain ⟨-, h10, h11, h12⟩ := h
  rw [configByte, if_neg h10, if_neg h11, if_neg h12]

theorem configure_inverted (P : Params) (w : Wait) {cfg : ThermistorConfig}
    (h : cfg.highThreshold.toInt ≤ cfg.lowThreshold.toInt) : configure P w cfg = .error .invalidConfiguration :=
  if_pos h

/-- Thresholds in order give the Configure sequence of R230, with a warning for a resolution out of range. -/
theorem configure_ordered (P : Params) (w : Wait) {cfg : ThermistorConfig}
    (h : cfg.lowThreshold.toInt < cfg.highThreshold.toInt) :
    configure P w cfg = .ok (configureProgram P w cfg, resOutOfRange cfg.resolutionBits) :=
  if_neg (Int.not_le.mpr h)

/-! ### The statements -/

/-- Settles O48: a computing or branching statement asks whether its variable is written, an accessing one how its
access ends, and no access touches the Host's own state; at HALT neither of the Host's moves changes anything. -/
theorem hostStatementSemantics : Obligations.HostStatementSemantics := by
  refine ⟨fun s x m imm l => ⟨rfl, fun v hm => ⟨?_, ?_, ?_, ?_⟩, fun hm => ?_, rfl⟩,
    fun s x off bit imm b => ⟨fun w t hread => ?_, fun t => hostStmt_wr_of_ok, fun f hread => ?_,
      fun f => hostStmt_wr_of_error⟩,
    fun s => step_of_hostEnded, rfl, ?_⟩
  · exact hostCompute_of_written x _ hm
  · rw [← add_eq_ofNat_mod]
    exact hostCompute_of_written x _ hm
  · exact hostBranch_of_written l hm beq_iff_eq
  · exact hostBranch_of_written l hm bne_iff_ne
  · exact ⟨hostCompute_of_unwritten x _ hm, hostCompute_of_unwritten x _ hm,
      hostBranch_of_unwritten _ l hm, hostBranch_of_unwritten _ l hm⟩
  · exact ⟨hostStmt_rd_of_ok x hread, hostStmt_poll_of_ok bit b hread⟩
  · exact ⟨hostStmt_rd_of_error x hread, hostStmt_poll_of_error bit b hread⟩
  · intro x
    simp [State.reset, HostState.initial]

/-- Settles O50: only 10, 11 and 12 have a config byte of their own; the thresholds alone decide between the rejection
and a program, the resolution alone the warning. -/
theorem configurationIsValidated : Obligations.ConfigurationIsValidated := by
  refine ⟨rfl, rfl, rfl, rfl, fun res => configByte_of_not_listed, fun P w cfg => configure_inverted P w,
    fun P w cfg h => ⟨configureProgram P w cfg, ?_⟩⟩
  rw [configure_ordered P w h, resOutOfRange_eq_decide]

end Sys2Proof.Machine

/-! ## Faults and the interrupt output (60_exceptions.md R263, R264, R266)

Lemmas about a state with a fault on record and about the fault each access raises, then the statements about them. -/

namespace Sys2Proof.Machine

/-! ### A fault on record (R263) -/

section
variable {s : State} {f : Fault} (hf : s.fault = some f)
include hf

theorem step_of_fault : step s = .fault f := by
  simp [step, hf]

/-- A run of one or more steps stops at its first. -/
theorem run_succ_of_fault (n : Nat) : core.run (n + 1) s = .fault f := by
  have hstep : core.step s = .fault f := step_of_fault hf
  simp only [Host.Core.run, hstep]

theorem not_steps_of_fault (t : State) : ¬ Steps s t := by
  simp [Steps, step_of_fault hf]

/-- With no step to take, no other state comes after. -/
theorem eq_of_reaches_of_fault {t : State} (h : Reaches s t) : t = s := by
  induction h with
  | refl => rfl
  | tail _ hstep ih => exact absurd (ih ▸ hstep) (not_steps_of_fault hf _)

theorem not_hostEnded_of_fault : ¬ HostEnded s := by
  rintro ⟨hnone, -⟩
  simp [hf] at hnone

end

/-! ### The fault of each register write (R103 to R109, R27) -/

theorem writeInst_error {v : Word} {s : State} {f : Fault} :
    writeInst v s = .error f ↔ s.phase ≠ .idle ∧ f = .instWhileNotIdle := by
  by_cases hidle : s.phase = .idle
  · simp [writeInst_idle v hidle, hidle]
  · simp [writeInst_not_idle v hidle, hidle, eq_comm]

/-- Go faults by the phase first, then by the word in INST. -/
theorem writeGo_error {s : State} {f : Fault} :
    writeGo s = .error f ↔
      s.phase ≠ .idle ∧ f = .goWhileNotIdle ∨
      s.phase = .idle ∧ dec s.params s.instReg = none ∧ f = .reservedInstruction := by
  by_cases hidle : s.phase = .idle
  · cases hdec : dec s.params s.instReg with
    | some op => simp [writeGo_decoded hidle hdec, hidle]
    | none => simp [writeGo_reserved hidle hdec, hidle, eq_comm]
  · simp [writeGo_not_idle hidle, hidle, eq_comm]

theorem writeClearGo_error {s : State} {f : Fault} :
    writeClearGo s = .error f ↔ (∃ op, s.phase = .busy op) ∧ f = .clearWhileBusy := by
  cases hp : s.phase with
  | busy op => simp [writeClearGo_busy hp, eq_comm]
  | idle => simp [writeClearGo_same (.inl hp)]
  | recover => simp [writeClearGo_same (.inr hp)]
  | done op => simp [writeClearGo_recover (.inl ⟨op, hp⟩)]
  | resetHeld => simp [writeClearGo_recover (.inr hp)]

theorem writeIrqe_error {v : Word} {s : State} {f : Fault} :
    writeIrqe v s = .error f ↔ v &&& ~~~irqeMask s.params ≠ 0#32 ∧ f = .reservedBits := by
  by_cases hmask : v &&& ~~~irqeMask s.params = 0#32
  · simp [writeIrqe_ok.mpr ⟨hmask, rfl⟩, hmask]
  · simp [writeIrqe_reservedBits hmask, hmask, eq_comm]

/-- A CTRL write faults on its reserved bits exactly if it has some: no later check raises that fault (R104). -/
theorem writeCtrl_reservedBits_iff {v : Word} {s : State} :
    writeCtrl v s = .error .reservedBits ↔ v &&& ~~~ctrlMask s.params ≠ 0#32 := by
  refine ⟨fun herr hmask => ?_, writeCtrl_reservedBits⟩
  cases hgo : v.getLsbD s.params.ctrlGo <;> cases hreset : v.getLsbD s.params.ctrlReset
  · simp [writeCtrl_eq_writeClearGo hmask hgo hreset, writeClearGo_error] at herr
  · simp [writeCtrl_eq_writeSoftReset hmask hgo hreset] at herr
  · simp [writeCtrl_eq_writeGo hmask hgo hreset, writeGo_error] at herr
  · simp [writeCtrl_goAndReset hmask hgo hreset] at herr

/-- A CTRL write faults ReservedInstruction exactly if it is a Go that finds IDLE and a word that decodes to
nothing (R105). -/
theorem writeCtrl_reservedInstruction_iff {v : Word} {s : State} :
    writeCtrl v s = .error .reservedInstruction ↔
      v &&& ~~~ctrlMask s.params = 0#32 ∧ v.getLsbD s.params.ctrlGo = true ∧
        v.getLsbD s.params.ctrlReset = false ∧ s.phase = .idle ∧ dec s.params s.instReg = none := by
  by_cases hmask : v &&& ~~~ctrlMask s.params = 0#32
  · cases hgo : v.getLsbD s.params.ctrlGo <;> cases hreset : v.getLsbD s.params.ctrlReset
    · simp [writeCtrl_eq_writeClearGo hmask hgo hreset, writeClearGo_error]
    · simp [writeCtrl_eq_writeSoftReset hmask hgo hreset]
    · simp [writeCtrl_eq_writeGo hmask hgo hreset, writeGo_error, hmask]
    · simp [writeCtrl_goAndReset hmask hgo hreset]
  · simp [writeCtrl_reservedBits hmask, hmask]

theorem writeReg_reservedBits_iff {r : Reg} {v : Word} {s : State} :
    writeReg r v s = .error .reservedBits ↔
      r = .ctrl ∧ v &&& ~~~ctrlMask s.params ≠ 0#32 ∨ r = .irqe ∧ v &&& ~~~irqeMask s.params ≠ 0#32 := by
  cases r with
  | inst => simp [writeReg, writeInst_error]
  | ctrl => simp [writeReg, writeCtrl_reservedBits_iff]
  | irqe => simp [writeReg, writeIrqe_error]
  | stat | data | id => simp [writeReg]

theorem writeReg_reservedInstruction_iff {r : Reg} {v : Word} {s : State} :
    writeReg r v s = .error .reservedInstruction ↔
      r = .ctrl ∧ writeCtrl v s = .error .reservedInstruction := by
  cases r with
  | inst => simp [writeReg, writeInst_error]
  | ctrl => simp [writeReg]
  | irqe => simp [writeReg, writeIrqe_error]
  | stat | data | id => simp [writeReg]

/-! ### The fault of an access through the port (R62, R264) -/

/-- The accesses that name a register are the aligned 32-bit ones at its offset (R22, R62). -/
theorem accessReg_ok_iff_offset {P : Params} (hw : P.wellFormed = true) {off bytes : Nat} {r : Reg} :
    accessReg P off bytes = .ok r ↔ bytes = 4 ∧ off = r.offset P := by
  constructor
  · intro h
    obtain ⟨hbytes, -, -, hreg⟩ := accessReg_ok.mp h
    exact ⟨hbytes, offset_of_regAt hreg⟩
  · rintro ⟨rfl, rfl⟩
    exact accessReg_offset hw r

/-- Every fault but BadAccess is raised by the register the access names, so after the access is admitted. -/
theorem portWrite_error_iff {s : State} (hw : s.params.wellFormed = true) {off bytes : Nat} {v : Word} {f : Fault}
    (hf : f ≠ .badAccess) :
    portWrite off bytes v s = .error f ↔
      bytes = 4 ∧ ∃ r : Reg, off = r.offset s.params ∧ writeReg r v s = .error f := by
  constructor
  · intro h
    cases hreg : accessReg s.params off bytes with
    | error g =>
      rw [portWrite_of_accessReg_error v hreg, accessReg_error hreg] at h
      exact absurd (Except.error.inj h).symm hf
    | ok r =>
      obtain ⟨rfl, rfl⟩ := (accessReg_ok_iff_offset hw).mp hreg
      exact ⟨rfl, r, rfl, (portWrite_offset hw r v).symm.trans h⟩
  · rintro ⟨rfl, r, rfl, h⟩
    exact (portWrite_offset hw r v).trans h

/-- Away from INST, CTRL and IRQE there is nothing to write (R22). -/
theorem portWrite_not_writable {s : State} {off : Nat} (bytes : Nat) (v : Word)
    (h : off ∉ [s.params.offInst, s.params.offCtrl, s.params.offIrqe]) :
    portWrite off bytes v s = .error .badAccess := by
  cases hreg : accessReg s.params off bytes with
  | error f => rw [portWrite_of_accessReg_error v hreg, accessReg_error hreg]
  | ok r =>
    obtain ⟨-, -, -, hat⟩ := accessReg_ok.mp hreg
    have hoff := offset_of_regAt hat
    cases r with
    | inst | ctrl | irqe => simp [hoff, Reg.offset] at h
    | stat | data | id => simp [portWrite, hreg, writeReg]

theorem portRead_error {s : State} {off bytes : Nat} {f : Fault} (h : portRead off bytes s = .error f) :
    f = .badAccess := by
  cases hreg : accessReg s.params off bytes with
  | error g =>
    rw [portRead_of_accessReg_error hreg, accessReg_error hreg] at h
    exact (Except.error.inj h).symm
  | ok r => simp [portRead, hreg] at h

/-! ### The statements -/

/-- Settles O9: step asks for a fault on record before it looks whose move it is. -/
theorem faultIsStickyAndFinal : Obligations.FaultIsStickyAndFinal := by
  intro s f hf
  exact ⟨step_of_fault hf, run_succ_of_fault hf, fun t => eq_of_reaches_of_fault hf, not_hostEnded_of_fault hf⟩

/-- Settles O42: the port admits an access before its register's own checks, and of those only the one on the
reserved bits and the one on the word in INST raise the two reserved faults. -/
theorem faultChecksInOrder : Obligations.FaultChecksInOrder := by
  intro s off bytes v hw
  refine ⟨?_, ?_, ?_, fun f => portRead_error⟩
  · rintro (hbytes | halign | hblock | htarget)
    · exact portWrite_of_accessReg_error v (accessReg_badAccess (.inl hbytes))
    · exact portWrite_of_accessReg_error v (accessReg_badAccess (.inr (.inl halign)))
    · exact portWrite_of_accessReg_error v (accessReg_badAccess (.inr (.inr hblock)))
    · exact portWrite_not_writable bytes v htarget
  · rw [portWrite_error_iff hw (by decide)]
    simp [writeReg_reservedBits_iff, and_or_left, exists_or, Reg.offset]
  · rw [portWrite_error_iff hw (by decide)]
    simp [writeReg_reservedInstruction_iff, writeCtrl_reservedInstruction_iff, Reg.offset]

/-- Settles O44: the output is wired through from the phase's two flags, each behind its enable. -/
theorem interruptIsALevel : Obligations.InterruptIsALevel := by
  intro s
  rw [State.irq, Bool.and_eq_true, Bool.or_eq_true, Bool.and_eq_true, Bool.and_eq_true, Phase.ready_iff,
    Phase.isDone_iff]

end Sys2Proof.Machine

/-! ## Hardware reset (10_state.md R50, 70_reset_and_hazards.md R290)

Where the spec leaves a value unspecified, each element takes a draw of its own index. -/

namespace Sys2Proof.Machine

/-- Settles O6: each element is read off the reset state; the free values are the first five draws, one index each. -/
theorem hardwareResetState : Obligations.HardwareResetState :=
  ⟨rfl, rfl, rfl, rfl, rfl, rfl, rfl, rfl⟩

end Sys2Proof.Machine

/-! ## The instruction word: the opcode table's rows, encoding and decoding (30_encoding.md R82 to R84)

A word that matches a row is that row's code once its operand byte is masked off, and the codes are distinct; so the
rows are disjoint and decoding takes the encoding's own branch. Then the statements about the word. -/

namespace Sys2Proof.Laws

/-! ### The codes are distinct -/

theorem allDistinct_iff_nodup {α : Type} [DecidableEq α] (l : List α) : allDistinct l = true ↔ l.Nodup := by
  induction l with
  | nil => simp [allDistinct]
  | cons a as ih => simp [allDistinct, ih]

theorem nodup_codes {P : Params} (h : P.wellFormed = true) : P.codes.Nodup := by
  obtain ⟨hdistinct, -⟩ := Params.wellFormed_codes h
  exact (allDistinct_iff_nodup _).mp hdistinct

theorem codesOk_of_wellFormed {P : Params} (h : P.wellFormed = true) : P.codesOk = true := by
  simp only [Params.wellFormed, Bool.and_eq_true] at h
  obtain ⟨⟨⟨⟨-, hcodes⟩, -⟩, -⟩, -⟩ := h
  exact hcodes

/-! ### The rows of the opcode table (R84) -/

theorem map_snd_opcodeRows (P : Params) : (opcodeRows P).map Prod.snd = P.codes := rfl

/-- A word that matches a row is the row's code but for its operand byte. -/
theorem strip_of_rowMatches {P : Params} (h : P.wellFormed = true) {row : Word × Word} (hrow : row ∈ opcodeRows P)
    {w : Word} (hw : rowMatches w row = true) : w &&& ~~~0xFF#32 = row.2 := by
  have low := code_low_byte_clear (codesOk_of_wellFormed h)
  have whole : ∀ v : Word, v &&& 0xFFFFFFFF#32 = v := fun v => BitVec.and_allOnes
  simp only [opcodeRows, List.mem_cons, List.not_mem_nil, or_false] at hrow
  rcases hrow with rfl | rfl | rfl | rfl | rfl <;> simp only [rowMatches, beq_iff_eq, whole] at hw
  · rw [hw]; exact strip_code (low .owReset)
  · rw [hw]; exact strip_code (low .owRdbit)
  · rw [hw]; exact strip_code (low .owRdbyte)
  · exact strip_bit_then_byte hw (low (.owWrbit false))
  · exact hw

theorem pairwise_disjoint_opcodeRows {P : Params} (h : P.wellFormed = true) :
    (opcodeRows P).Pairwise fun r r' => ∀ w : Word, ¬ (rowMatches w r = true ∧ rowMatches w r' = true) := by
  have hcodes : (opcodeRows P).Pairwise fun r r' => r.2 ≠ r'.2 := by
    rw [← List.pairwise_map, map_snd_opcodeRows]
    exact nodup_codes h
  refine hcodes.imp_of_mem fun hr hr' hne w => ?_
  rintro ⟨hm, hm'⟩
  exact hne ((strip_of_rowMatches h hr hm).symm.trans (strip_of_rowMatches h hr' hm'))

/-- The branches of R83 test the rows, in the table's order. -/
theorem isSome_dec_eq_any_rowMatches (P : Params) (w : Word) :
    (dec P w).isSome = (opcodeRows P).any (rowMatches w) := by
  have whole : w &&& 0xFFFFFFFF#32 = w := BitVec.and_allOnes
  rw [Bool.eq_iff_iff, ← not_iff_not, Bool.not_eq_true, Option.isSome_eq_false_iff, Option.isNone_iff_eq_none,
    dec_eq_none_iff]
  simp [opcodeRows, rowMatches, whole]

/-! ### Decoding an encoded operation -/

/-- The encoded word without its operand byte is the operation's code (R81, R82). -/
theorem strip_encode {P : Params} (h : P.wellFormed = true) (i : Instr) : encode P i &&& ~~~0xFF#32 = i.code P := by
  have statement : Encoding.Statement i := by
    cases i with
    | owReset => exact Encoding.owReset
    | owRdbit => exact Encoding.owRdbit
    | owRdbyte => exact Encoding.owRdbyte
    | owWrbit b => exact Encoding.owWrbit b
    | owWrbyte d => exact Encoding.owWrbyte d
  exact statement.2 P (codesOk_of_wellFormed h)

/-- An encoded operation is no other operation's code. -/
theorem encode_ne_code {P : Params} (h : P.wellFormed = true) (i : Instr) {c : Word} (hc : c ∈ P.codes)
    (hne : c ≠ i.code P) : encode P i ≠ c := by
  obtain ⟨-, hlow⟩ := Params.wellFormed_codes h
  rintro rfl
  exact hne ((strip_code (hlow _ hc)).symm.trans (strip_encode h i))

/-- The branches before the operation's own test other codes, and its own one gives the operand back. -/
theorem dec_encode {P : Params} (h : P.wellFormed = true) (i : Instr) : dec P (encode P i) = some i := by
  have low := code_low_byte_clear (codesOk_of_wellFormed h)
  have hcodes := nodup_codes h
  simp only [Params.codes, List.nodup_cons, List.mem_cons, List.not_mem_nil, or_false, not_or] at hcodes
  obtain ⟨⟨hRB, hRY, hRb, hRy⟩, ⟨hBY, hBb, hBy⟩, ⟨hYb, hYy⟩, hby, -⟩ := hcodes
  have hR : P.opReset ∈ P.codes := by simp [Params.codes]
  have hB : P.opReadBit ∈ P.codes := by simp [Params.codes]
  have hY : P.opReadByte ∈ P.codes := by simp [Params.codes]
  cases i with
  | owReset => exact if_pos BitVec.or_zero
  | owRdbit =>
    have other := @encode_ne_code P h .owRdbit
    have hown : encode P .owRdbit = P.opReadBit := BitVec.or_zero
    rw [dec, if_neg (other hR hRB), if_pos hown]
  | owRdbyte =>
    have other := @encode_ne_code P h .owRdbyte
    have hown : encode P .owRdbyte = P.opReadByte := BitVec.or_zero
    rw [dec, if_neg (other hR hRY), if_neg (other hB hBY), if_pos hown]
  | owWrbit b =>
    have other := @encode_ne_code P h (.owWrbit b)
    have hown : encode P (.owWrbit b) &&& ~~~1#32 = P.opWriteBit :=
      (strip_bitOperand b (low (.owWrbit b))).1
    rw [dec, if_neg (other hR hRb), if_neg (other hB hBb), if_neg (other hY hYb), if_pos hown]
    exact congrArg (some ∘ Instr.owWrbit) (low_bitOperand b (low (.owWrbit b)))
  | owWrbyte d =>
    have other := @encode_ne_code P h (.owWrbyte d)
    have hown : encode P (.owWrbyte d) &&& ~~~0xFF#32 = P.opWriteByte := strip_encode h (.owWrbyte d)
    have hbit : encode P (.owWrbyte d) &&& ~~~1#32 ≠ P.opWriteBit := by
      intro heq
      exact hby ((strip_bit_then_byte heq (low (.owWrbit false))).symm.trans hown)
    rw [dec, if_neg (other hR hRy), if_neg (other hB hBy), if_neg (other hY hYy), if_neg hbit, if_pos hown]
    exact congrArg (some ∘ Instr.owWrbyte) (low_byteOperand d (low (.owWrbyte d)))

/-! ### Encoding a decoded word -/

/-- A word is its upper 31 bits and its bit 0. -/
theorem or_bitOperand_of_strip (w : Word) :
    w &&& ~~~1#32 ||| (BitVec.ofBool (w.getLsbD 0)).setWidth 32 = w := by
  apply BitVec.eq_of_getLsbD_eq
  intro i hi
  simp only [BitVec.getLsbD_or, BitVec.getLsbD_and, getLsbD_bitOperandMask hi, BitVec.getLsbD_setWidth, hi,
    decide_true, Bool.true_and, BitVec.getLsbD_ofBool]
  cases i with
  | zero => simp
  | succ k => simp

/-- A word is its upper 24 bits and its low byte. -/
theorem or_byteOperand_of_strip (w : Word) : w &&& ~~~0xFF#32 ||| (w.setWidth 8).setWidth 32 = w := by
  apply BitVec.eq_of_getLsbD_eq
  intro i hi
  simp only [BitVec.getLsbD_or, BitVec.getLsbD_and, getLsbD_byteMask hi, BitVec.getLsbD_setWidth, hi,
    decide_true, Bool.true_and]
  by_cases h8 : 8 ≤ i
  · simp [h8]
  · simp [h8, show i < 8 by omega]

/-- The branch that decodes a word names its code, and the operand it takes is what the code lacks. -/
theorem encode_of_dec {P : Params} {w : Word} {i : Instr} (h : dec P w = some i) : encode P i = w := by
  unfold dec at h
  split_ifs at h with hcode hcode hcode hcode hcode <;> obtain rfl := Option.some.inj h
  · exact BitVec.or_zero.trans hcode.symm
  · exact BitVec.or_zero.trans hcode.symm
  · exact BitVec.or_zero.trans hcode.symm
  · rw [encode, Instr.code, Instr.operand, ← hcode, or_bitOperand_of_strip]
  · rw [encode, Instr.code, Instr.operand, ← hcode, or_byteOperand_of_strip]

/-! ### The statements -/

/-- Settles O3: the codes are distinct with a clear low byte, so the operand is neither lost nor mistaken. -/
theorem decodeAndEncodeAgree : Obligations.DecodeAndEncodeAgree :=
  fun _ h => ⟨dec_encode h, fun _ _ => encode_of_dec⟩

/-- Settles O4: two rows a word matches would have one code, and R83's branches are the rows. -/
theorem opcodeRowsAreDisjointAndComplete : Obligations.OpcodeRowsAreDisjointAndComplete :=
  fun P h => ⟨pairwise_disjoint_opcodeRows h, isSome_dec_eq_any_rowMatches P⟩

/-- Settles O2: the words of the format table are computed; in the neighbours no branch of R83 finds its code. -/
theorem decodedWordsOfEveryFamily : Obligations.DecodedWordsOfEveryFamily := by
  unfold Obligations.DecodedWordsOfEveryFamily
  decide

end Sys2Proof.Laws

/-! ## What every step keeps (10_state.md R30, R31, R40, 40_handshake.md R102, R120 to R124)

What an operation leaves, what one step can do to the block, and what it can do to the phase; then the statements that
each step, or each fair run, answers for. -/

namespace Sys2Proof.Machine

/-! ### What an operation leaves -/

/-- The latch of a Reset tells the line's answer, with either polarity (R33, R141). -/
theorem presenceOf_bne (P : Params) (answered : Bool) :
    (presenceOf P answered != P.presenceSetMeansAbsent) = answered := by
  unfold presenceOf
  cases P.presenceSetMeansAbsent <;> cases answered <;> rfl

/-- An operation appends the events its result describes (R141 to R145). -/
theorem exec_busLog {i : Instr} {s t : State} (h : exec i s = .next t) : t.busLog = s.busLog ++ resultEvents t i := by
  cases i with
  | owReset =>
    obtain rfl := Host.Outcome.next.inj (h.symm.trans (exec_owReset s))
    simp only [resultEvents, presenceOf_bne]
  | owRdbit =>
    obtain rfl := Host.Outcome.next.inj (h.symm.trans (exec_owRdbit s))
    simp only [resultEvents, bitByte_getLsbD_zero]
  | owRdbyte =>
    obtain rfl := Host.Outcome.next.inj (h.symm.trans (exec_owRdbyte s))
    simp only [resultEvents, byteBits_bitsByte _ (s.length_slotBits 8)]
  | owWrbit b =>
    obtain rfl := Host.Outcome.next.inj (h.symm.trans (exec_owWrbit b s))
    rfl
  | owWrbyte v =>
    obtain rfl := Host.Outcome.next.inj (h.symm.trans (exec_owWrbyte v s))
    rfl

/-- An operation touches nothing of the Host's and nothing the Host writes (R140). -/
theorem exec_hostSide {i : Instr} {s t : State} (h : exec i s = .next t) :
    t.host = s.host ∧ t.irqeReadyEn = s.irqeReadyEn ∧ t.irqeDoneEn = s.irqeDoneEn ∧ t.fault = s.fault ∧
      t.schedule = s.schedule ∧ t.turn = s.turn := by
  cases i <;> cases h <;> simp

/-- Only a Reset latches the presence flag. -/
theorem exec_presenceFlag {i : Instr} {s t : State} (h : exec i s = .next t) (hi : i ≠ .owReset) :
    t.presenceFlag = s.presenceFlag := by
  cases i with
  | owReset => exact absurd rfl hi
  | owRdbit | owRdbyte | owWrbit | owWrbyte => cases h; simp

/-- Only the two reads latch data. -/
theorem exec_rxData {i : Instr} {s t : State} (h : exec i s = .next t) (hbit : i ≠ .owRdbit)
    (hbyte : i ≠ .owRdbyte) : t.rxData = s.rxData := by
  cases i with
  | owRdbit => exact absurd rfl hbit
  | owRdbyte => exact absurd rfl hbyte
  | owReset | owWrbit | owWrbyte => cases h; simp

/-- Only ReadBit draws, the upper bits of its latch. -/
theorem exec_draws {i : Instr} {s t : State} (h : exec i s = .next t) (hi : i ≠ .owRdbit) : t.draws = s.draws := by
  cases i with
  | owRdbit => exact absurd rfl hi
  | owReset | owRdbyte | owWrbit | owWrbyte => cases h; simp

/-! ### What one step can do to the block -/

/-- What a move of any agent can do to the block. -/
inductive BlockEffect (s : State) : State → Prop
  /-- Nothing. -/
  | still : BlockEffect s s
  /-- One register write, of the Host or of its handler. -/
  | write {t : State} (h : WriteEffect s t) : BlockEffect s t
  /-- The completion step (R120). -/
  | complete {op : Instr} {t : State} (hp : s.phase = .busy op) (h : exec op s = .next t) : BlockEffect s t
  /-- The Ready step (R124). -/
  | ready (hp : s.phase = .recover) : BlockEffect s (s.setPhase .idle)

/-- A step has one effect on the block; besides it moves the interleaving, draws a word for a read, and changes the
Host's own state or the fault record. -/
theorem step_blockEffect {s t : State} (h : step s = .next t) :
    ∃ (b : State) (h : HostState) (f : Option Fault) (n : Nat),
      BlockEffect s.popMove b ∧ t = { b with host := h, fault := f, draws := n } := by
  obtain ⟨-, ⟨-, hhost⟩ | ⟨-, hhandler⟩ | ⟨-, hengine⟩⟩ := step_cases h
  · obtain ⟨u, hs, hu, rfl⟩ | ⟨f, rfl⟩ := hhost
    · cases hu with
      | still => exact ⟨_, hs, _, _, .still, rfl⟩
      | read => exact ⟨_, hs, _, _, .still, rfl⟩
      | write hw => exact ⟨_, hs, _, _, .write hw, rfl⟩
    · exact ⟨_, _, some f, _, .still, rfl⟩
  · obtain rfl | rfl := hhandler
    · exact ⟨_, _, _, _, .still, rfl⟩
    · exact ⟨_, _, _, _, .write (.irqe false false), rfl⟩
  · obtain ⟨op, hp, hexec⟩ | ⟨hp, rfl⟩ | ⟨-, rfl⟩ := hengine
    · exact ⟨_, _, _, _, .complete hp hexec, rfl⟩
    · exact ⟨_, _, _, _, .ready hp, rfl⟩
    · exact ⟨_, _, _, _, .still, rfl⟩

/-! ### What each effect keeps -/

theorem BlockEffect.params {s t : State} (h : BlockEffect s t) : t.params = s.params := by
  cases h with
  | still | ready => rfl
  | write hw =>
    obtain ⟨hparams, -⟩ := hw.frame
    exact hparams
  | complete _ hexec => exact exec_params hexec

theorem step_params {s t : State} (h : step s = .next t) : t.params = s.params := by
  obtain ⟨b, hs, f, n, hb, rfl⟩ := step_blockEffect h
  exact hb.params

theorem reaches_params {s t : State} (h : Reaches s t) : t.params = s.params := by
  induction h with
  | refl => rfl
  | tail _ hstep ih => exact (step_params hstep).trans ih

theorem BlockEffect.busLog_grows {s t : State} (h : BlockEffect s t) : s.busLog <+: t.busLog := by
  cases h with
  | still | ready => exact ⟨[], List.append_nil _⟩
  | write hw => obtain hlog | hlog := hw.busLog <;> simp [hlog]
  | complete _ hexec => exact ⟨_, (exec_busLog hexec).symm⟩

/-- INST is written at rest only, and Go enters BUSY of what it decodes to (R103, R105). -/
theorem WriteEffect.opMatchesInst {s t : State} (h : WriteEffect s t) (hs : OpMatchesInst s) : OpMatchesInst t := by
  cases h with
  | inst v hidle => intro op hop; simp [hidle] at hop
  | go op' _ hdec =>
    intro op hop
    obtain rfl : op' = op := by simpa using hop
    exact hdec
  | none | irqe => exact hs
  | clear | reset | abort => intro op hop; simp at hop

theorem BlockEffect.opMatchesInst {s t : State} (h : BlockEffect s t) (hs : OpMatchesInst s) : OpMatchesInst t := by
  cases h with
  | still => exact hs
  | write hw => exact hw.opMatchesInst hs
  | complete hp hexec =>
    intro op hop
    rw [exec_params hexec, exec_instReg hexec]
    apply hs
    rw [hp]
    rwa [exec_phase hexec] at hop
  | ready => intro op hop; simp at hop

/-- A write that leaves the block in DONE leaves the latches and the log (R103 to R108). -/
theorem WriteEffect.resultOnTheLine {s t : State} (h : WriteEffect s t) (hs : ResultOnTheLine s) :
    ResultOnTheLine t := by
  cases h with
  | inst v hidle => intro op hop; simp [hidle] at hop
  | go | clear | reset | abort => intro op hop; simp at hop
  | none => exact hs
  | irqe => exact hs

theorem BlockEffect.resultOnTheLine {s t : State} (h : BlockEffect s t) (hs : ResultOnTheLine s) :
    ResultOnTheLine t := by
  cases h with
  | still => exact hs
  | write hw => exact hw.resultOnTheLine hs
  | complete hp hexec =>
    intro op hop
    obtain rfl := Phase.done.inj ((exec_phase hexec).symm.trans hop)
    exact ⟨_, (exec_busLog hexec).symm⟩
  | ready => intro op hop; simp at hop

/-! ### What one step can do to the phase -/

/-- The cells of R102 that do not fault, the phase before and the phase after. -/
inductive PhaseMove : Phase → Phase → Prop
  /-- No transition. -/
  | stay (p : Phase) : PhaseMove p p
  /-- Go accepted (R105). -/
  | go (op : Instr) : PhaseMove .idle (.busy op)
  /-- The completion step (R120). -/
  | complete (op : Instr) : PhaseMove (.busy op) (.done op)
  /-- ClearGo (R107). -/
  | clear (op : Instr) : PhaseMove (.done op) .recover
  /-- The Ready step (R124). -/
  | ready : PhaseMove .recover .idle
  /-- Soft reset (R108). -/
  | reset (p : Phase) : PhaseMove p .resetHeld
  /-- The release of a soft reset (R107). -/
  | release : PhaseMove .resetHeld .recover

theorem WriteEffect.phaseMove {s t : State} (h : WriteEffect s t) : PhaseMove s.phase t.phase := by
  cases h with
  | inst | none | irqe => exact .stay _
  | go op hidle => rw [hidle]; exact .go op
  | clear hend =>
    obtain ⟨op, hdone⟩ | hheld := hend
    · rw [hdone]; exact .clear op
    · rw [hheld]; exact .release
  | reset | abort => exact .reset _

theorem BlockEffect.phaseMove {s t : State} (h : BlockEffect s t) : PhaseMove s.phase t.phase := by
  cases h with
  | still => exact .stay _
  | write hw => exact hw.phaseMove
  | complete hp hexec => rw [hp, exec_phase hexec]; exact .complete _
  | ready hp => rw [hp]; exact .ready

theorem step_phaseMove {s t : State} (h : step s = .next t) : PhaseMove s.phase t.phase := by
  obtain ⟨b, hs, f, n, hb, rfl⟩ := step_blockEffect h
  exact hb.phaseMove

/-- The pipeline is left, through DONE and RECOVER or a soft reset, before it is taken again. -/
theorem PhaseMove.op_eq {p q : Phase} {op op' : Instr} (h : PhaseMove p q) (hp : p.op = some op)
    (hq : q.op = some op') : op' = op := by
  cases h with
  | stay => exact Option.some.inj (hq.symm.trans hp)
  | complete => exact Option.some.inj (hq.symm.trans hp)
  | go | ready | release => simp at hp
  | clear | reset => simp at hq

theorem PhaseMove.not_done_to_ready {p q : Phase} (h : PhaseMove p q) : ¬ (p.isDone = true ∧ q.ready = true) := by
  cases h with
  | stay p => cases p <;> simp
  | go | complete | clear | ready | reset | release => simp

theorem PhaseMove.not_ready_to_done {p q : Phase} (h : PhaseMove p q) : ¬ (p.ready = true ∧ q.isDone = true) := by
  cases h with
  | stay p => cases p <;> simp
  | go | complete | clear | ready | reset | release => simp

theorem Phase.not_ready_and_done (p : Phase) : ¬ (p.ready = true ∧ p.isDone = true) := by
  cases p <;> simp

/-! ### Progress under fairness (R123) -/

/-- On a run that is fair for the Engine, a phase in which the Engine has a step is left for where its step leads, or
for where any other step that leaves it does. -/
theorem fair_leaves {r : Nat → State} (hr : IsRun r) (hfair : EngineFair r) (hon : (r 0).params.engineFair = true)
    {p : Phase} (hen : p.engineEnabled = true) {Q : Phase → Prop}
    (hstep : ∀ s t : State, step s = .next t → s.phase = p → t.phase = p ∨ Q t.phase)
    (hengine : ∀ s t : State, step s = .next t → s.phase = p → s.nextMove = .engine → Q t.phase)
    {n : Nat} (hn : (r n).phase = p) : ∃ m, n ≤ m ∧ Q (r m).phase := by
  by_contra hnever
  push Not at hnever
  have stays : ∀ m, n ≤ m → (r m).phase = p := by
    intro m hm
    induction m, hm using Nat.le_induction with
    | base => exact hn
    | succ m hm ih => exact (hstep _ _ (hr m) ih).resolve_right (hnever _ (by omega))
  obtain ⟨m, hm, hmove⟩ := hfair hon n fun m hm => by rw [stays m hm, hen]
  exact hnever (m + 1) (by omega) (hengine _ _ (hr m) (stays m hm) hmove)

/-- RECOVER is left by the Ready step or by a soft reset. -/
theorem PhaseMove.of_recover {q : Phase} (h : PhaseMove .recover q) : q = .recover ∨ q = .idle ∨ q = .resetHeld := by
  cases h with
  | stay | ready | reset => simp

/-- Where the Engine has a step, its turn takes it. -/
theorem step_engine_phase {s t : State} (h : step s = .next t) (hm : s.nextMove = .engine) :
    (∃ op, s.phase = .busy op ∧ t.phase = .done op) ∨ s.phase = .recover ∧ t.phase = .idle ∨
      s.phase.engineEnabled = false ∧ t.phase = s.phase := by
  obtain ⟨hf, -⟩ := step_cases h
  rw [step_of_engine hf hm] at h
  exact engineMove_phase (s := s.popMove) h

/-! ### The statements -/

/-- Settles O15: INST and the phase change together only at Go, which decodes INST. -/
theorem stepKeepsOpMatchesInst : Obligations.StepKeepsOpMatchesInst := by
  intro s t hs hstep
  obtain ⟨b, h, f, n, hb, rfl⟩ := step_blockEffect hstep
  exact hb.opMatchesInst hs

/-- Settles O16: the completion step logs what it latches, and no other effect ends in DONE with another latch or
log. -/
theorem stepKeepsResultOnTheLine : Obligations.StepKeepsResultOnTheLine := by
  intro s t hs hstep
  obtain ⟨b, h, f, n, hb, rfl⟩ := step_blockEffect hstep
  exact hb.resultOnTheLine hs

/-- Settles O17: after reset the block is in RECOVER, with no operation in the pipeline. -/
theorem invariantsHoldAtReset : Obligations.InvariantsHoldAtReset := by
  have hphase : State.reset.phase = .recover := rfl
  exact ⟨fun op hop => by simp [hphase] at hop, fun op hop => by simp [hphase] at hop⟩

/-- Settles O18: no effect on the block touches the parameters, and each appends to the log or leaves it. -/
theorem stepKeepsParamsAndLogPrefix : Obligations.StepKeepsParamsAndLogPrefix := by
  intro s t hstep
  obtain ⟨b, h, f, n, hb, rfl⟩ := step_blockEffect hstep
  exact ⟨hb.params, hb.busLog_grows⟩

/-- Settles O19: of the transitions only the completion step has an operation on both sides, the same one. -/
theorem oneOperationAtATime : Obligations.OneOperationAtATime :=
  fun _ _ _ _ hstep => (step_phaseMove hstep).op_eq

/-- Settles O21: the two flags are those of the phase, and R102 has no cell from DONE to IDLE or from IDLE to DONE. -/
theorem readyAndDoneAreApart : Obligations.ReadyAndDoneAreApart := by
  constructor
  · intro s d hw
    rw [getLsbD_statWord_ready hw, getLsbD_statWord_done hw]
    exact s.phase.not_ready_and_done
  · intro s t hstep
    have hmove := step_phaseMove hstep
    exact ⟨hmove.not_done_to_ready, hmove.not_ready_to_done⟩

/-- Settles O14: while BUSY or RECOVER lasts the Engine's step stays enabled, so a fair Engine takes it. -/
theorem fairEngineMakesProgress : Obligations.FairEngineMakesProgress := by
  intro r hr hfair hon
  constructor
  · intro n op hbusy
    refine fair_leaves (Q := fun q => q = .done op ∨ q = .resetHeld) hr hfair hon (Phase.engineEnabled_busy op)
      (fun s t hstep hp => ?_) (fun s t hstep hp hm => ?_) hbusy
    · obtain ⟨-, hphase⟩ := step_busy hstep hp
      exact hphase
    · obtain ⟨op', hp', hdone⟩ | ⟨hrecover, -⟩ | ⟨hdisabled, -⟩ := step_engine_phase hstep hm
      · obtain rfl : op = op' := Phase.busy.inj (hp.symm.trans hp')
        exact .inl hdone
      · simp [hp] at hrecover
      · simp [hp] at hdisabled
  · intro n hrecover
    refine fair_leaves (Q := fun q => q = .idle ∨ q = .resetHeld) hr hfair hon Phase.engineEnabled_recover
      (fun s t hstep hp => (hp ▸ step_phaseMove hstep).of_recover) (fun s t hstep hp hm => ?_) hrecover
    obtain ⟨op, hbusy, -⟩ | ⟨-, hidle⟩ | ⟨hdisabled, -⟩ := step_engine_phase hstep hm
    · simp [hp] at hbusy
    · exact .inl hidle
    · simp [hp] at hdisabled

/-- Settles O22: the Engine completes an operation, or moves the phase alone, or does nothing. -/
theorem engineMoveLeavesTheHostSide : Obligations.EngineMoveLeavesTheHostSide := by
  intro s t hstep hm
  obtain ⟨hf, ⟨hhost, -⟩ | ⟨hhandler, -⟩ | ⟨-, hengine⟩⟩ := step_cases hstep
  · simp [hm] at hhost
  · simp [hm] at hhandler
  · obtain ⟨op, -, hexec⟩ | ⟨-, rfl⟩ | ⟨-, rfl⟩ := hengine
    · obtain ⟨hhost, hready, hdone, hfault, -⟩ := exec_hostSide hexec
      have hinst := exec_instReg hexec
      have hparams := exec_params hexec
      exact ⟨hhost, hinst, hready, hdone, hparams, hfault.trans hf⟩
    · exact ⟨rfl, rfl, rfl, rfl, rfl, hf⟩
    · exact ⟨rfl, rfl, rfl, rfl, rfl, hf⟩

/-- Settles O28: each operation's next state shows what it changes, and its events, one or eight of them. -/
theorem busOperationFrame : Obligations.BusOperationFrame := by
  intro i s
  obtain ⟨t, hexec⟩ := exec_next i s
  obtain ⟨hhost, hready, hdone, hfault, hschedule, hturn⟩ := exec_hostSide hexec
  have hlog := exec_busLog hexec
  refine ⟨t, hexec, exec_instReg hexec, hready, hdone, exec_params hexec, hfault, hhost, hschedule, hturn,
    exec_phase hexec, ?_, ?_, ?_, ?_⟩
  · exact exec_presenceFlag hexec
  · exact exec_rxData hexec
  · exact exec_draws hexec
  · cases i with
    | owReset => exact ⟨_, hlog⟩
    | owRdbit => exact ⟨_, hlog⟩
    | owRdbyte => exact ⟨_, length_byteBits _, hlog⟩
    | owWrbit b => exact hlog
    | owWrbyte v => exact ⟨_, length_byteBits _, hlog⟩

end Sys2Proof.Machine

/-! ## Single accesses and moves (10_state.md section 7, 20_memory.md sections 3 and 5, 40_handshake.md R108)

What a CTRL write does by its GO bit, the next state of a soft reset, the word placed for the next step and the
handler's move; then the statements that look at one access or one move. -/

namespace Sys2Proof.Machine

/-! ### CTRL writes -/

/-- The GO bit tells Go from the two other writes of CTRL that succeed (R104). -/
theorem writeCtrl_ok_go {v : Word} {s t : State} (h : writeCtrl v s = .ok t) :
    v.getLsbD s.params.ctrlGo = true ∧ writeGo s = .ok t ∨
    v.getLsbD s.params.ctrlGo = false ∧ (writeClearGo s = .ok t ∨ t = writeSoftReset s) := by
  by_cases hmask : v &&& ~~~ctrlMask s.params = 0#32
  · cases hgo : v.getLsbD s.params.ctrlGo <;> cases hreset : v.getLsbD s.params.ctrlReset
    · exact .inr ⟨rfl, .inl ((writeCtrl_eq_writeClearGo hmask hgo hreset).symm.trans h)⟩
    · rw [writeCtrl_eq_writeSoftReset hmask hgo hreset] at h
      exact .inr ⟨rfl, .inr (Except.ok.inj h).symm⟩
    · exact .inl ⟨rfl, (writeCtrl_eq_writeGo hmask hgo hreset).symm.trans h⟩
    · simp [writeCtrl_goAndReset hmask hgo hreset] at h
  · simp [writeCtrl_reservedBits hmask] at h

theorem writeGo_phase {s t : State} (h : writeGo s = .ok t) : ∃ op, t.phase = .busy op := by
  obtain ⟨-, op, -, rfl⟩ := writeGo_ok.mp h
  exact ⟨op, rfl⟩

theorem writeClearGo_phase {s t : State} (h : writeClearGo s = .ok t) : t.phase = .idle ∨ t.phase = .recover := by
  obtain ⟨hsame, rfl⟩ | ⟨-, rfl⟩ := writeClearGo_ok.mp h
  · exact hsame
  · exact .inr rfl

/-- After a write with GO = 1 Ready is down, after one with GO = 0 Done is. -/
theorem writeCtrl_ok_flags {v : Word} {s t : State} (h : writeCtrl v s = .ok t) :
    (v.getLsbD s.params.ctrlGo = true → t.phase.ready = false) ∧
    (v.getLsbD s.params.ctrlGo = false → t.phase.isDone = false) := by
  obtain ⟨hgo, hwrite⟩ | ⟨hgo, hwrite | rfl⟩ := writeCtrl_ok_go h
  · obtain ⟨op, hbusy⟩ := writeGo_phase hwrite
    simp [hgo, hbusy]
  · obtain hidle | hrecover := writeClearGo_phase hwrite
    · simp [hgo, hidle]
    · simp [hgo, hrecover]
  · simp [hgo, writeSoftReset_phase]

/-! ### Soft reset (R108) -/

/-- No soft reset touches INST, the parameters or the fault record. -/
theorem writeSoftReset_frame (s : State) :
    (writeSoftReset s).params = s.params ∧ (writeSoftReset s).fault = s.fault ∧
      (writeSoftReset s).instReg = s.instReg := by
  obtain ⟨-, h⟩ | ⟨-, ⟨-, h⟩ | ⟨-, h⟩⟩ := writeSoftReset_cases s <;> rw [h] <;> simp

theorem writeSoftReset_resetHeld {s : State} (h : s.phase = .resetHeld) : writeSoftReset s = s := by
  simp [writeSoftReset, h]

/-! ### The three CTRL words a host writes, at the register port -/

section
variable {s : State} (hw : s.params.wellFormed = true)
include hw

theorem portWrite_ctrlGo : portWrite s.params.offCtrl 4 (bitMask s.params.ctrlGo) s = writeGo s :=
  (portWrite_offCtrl hw _).trans (writeCtrl_go hw)

theorem portWrite_ctrlReset :
    portWrite s.params.offCtrl 4 (bitMask s.params.ctrlReset) s = .ok (writeSoftReset s) :=
  (portWrite_offCtrl hw _).trans (writeCtrl_reset hw)

theorem portWrite_ctrlIdle : portWrite s.params.offCtrl 4 s.params.ctrlIdle s = writeClearGo s :=
  (portWrite_offCtrl hw _).trans (writeCtrl_idle hw)

end

/-! ### A word placed for the next step (log 11) -/

/-- A whole word is its own table word. -/
theorem tableWord_toNat (w : Word) : tableWord 32 w.toNat = w := by
  rw [tableWord, Nat.mod_eq_of_lt w.isLt, BitVec.ofNat_toNat, BitVec.setWidth_eq]

theorem issueWord_decoded {s : State} {w : Word} {i : Instr} (h : dec s.params w = some i) :
    issueWord s w = (s.setInst w).setPhase (.busy i) := by
  simp [issueWord, h]

/-- Placing a word that decodes changes INST, the phase, the fault record and the schedule only. -/
theorem State.withFetchWord_decoded {s : State} {w : Word} {i : Instr} (h : dec s.params w = some i) :
    s.withFetchWord 32 w.toNat =
      { s with instReg := w, phase := .busy i, fault := none, schedule := .engine :: s.schedule } := by
  rw [State.withFetchWord, tableWord_toNat, issueWord_decoded (s := s.clearFault) h]
  rfl

/-- The Engine's turn in BUSY runs the operation (R120). -/
theorem step_engine_busy {s : State} {i : Instr} (hf : s.fault = none) (hp : s.phase = .busy i)
    (hm : s.nextMove = .engine) : step s = exec i s.popMove := by
  rw [step_of_engine hf hm, engineMove_busy (s := s.popMove) hp]

/-! ### Moves of the Host and of its handler -/

theorem hostMove_of_error {s : State} {st : HostStmt} {f : Fault} (hc : s.host.current = some st)
    (h : hostStmt st s = .error f) : hostMove s = s.raise f := by
  simp [hostMove, hc, h]

theorem handlerMove_of_irq {s : State} (hrun : s.host.running = true) (hhandler : s.host.handler = true)
    (hirq : s.irq = true) :
    handlerMove s = (s.setEnables false false).setHost (s.host.setNotified true) := by
  simp [handlerMove, hrun, hhandler, hirq]

/-- With both sources disabled the interrupt output is down (60_exceptions.md R266). -/
theorem irq_of_disabled {s : State} (hready : s.irqeReadyEn = false) (hdone : s.irqeDoneEn = false) :
    s.irq = false := by
  simp [State.irq, hready, hdone]

/-- With neither flag up it is down whatever the enables. -/
theorem irq_of_flags_down {s : State} (hready : s.phase.ready = false) (hdone : s.phase.isDone = false) :
    s.irq = false := by
  simp [State.irq, hready, hdone]

/-! ### The statements -/

/-- Settles O7: the block starts in RECOVER, where neither flag is up. -/
theorem resetRaisesNothing : Obligations.ResetRaisesNothing := by
  have hw : State.reset.params.wellFormed = true := Params.default_wellFormed
  refine ⟨fun d => ⟨?_, ?_⟩, irq_of_flags_down rfl rfl, portRead_offset hw .id⟩
  · exact getLsbD_statWord_ready hw d
  · exact getLsbD_statWord_done hw d

/-- Settles O8: a placed word that decodes is the running operation, and the Engine is next. -/
theorem stepRunsTheDecodedInstruction : Obligations.StepRunsTheDecodedInstruction := by
  refine ⟨fun s i => step_engine_busy, fun s w i hdec _ => ?_⟩
  have hplaced := State.withFetchWord_decoded hdec
  refine ⟨step_engine_busy ?_ ?_ ?_, hplaced⟩ <;> rw [hplaced]
  rfl

/-- Settles O10: the Host's move turns a statement's fault into its record, which the next step answers. -/
theorem raisingRecordsTheFaultOnly : Obligations.RaisingRecordsTheFaultOnly := by
  intro s st f hf hm hc herr
  refine ⟨?_, step_of_fault rfl⟩
  rw [step_of_host hf hm, hostMove_of_error (s := s.popMove) hc herr]
  rfl

/-- Settles O34: a read that succeeds draws at most one word. -/
theorem readsHaveNoSideEffect : Obligations.ReadsHaveNoSideEffect := by
  intro s t off bytes w hread
  obtain rfl | rfl := portRead_state hread
  · exact ⟨rfl, Nat.le_refl _⟩
  · exact ⟨rfl, Nat.le_add_right _ 1⟩

/-- Settles O40: R108 by phase: the abort is logged in BUSY, and in RESET_HELD nothing is done. -/
theorem softResetByPhase : Obligations.SoftResetByPhase := by
  intro s v hw hmask hgo hreset
  rw [portWrite_offCtrl hw, writeCtrl_eq_writeSoftReset hmask hgo hreset]
  refine ⟨fun hheld => congrArg _ (writeSoftReset_resetHeld hheld), fun hnot => congrArg _ ?_⟩
  unfold writeSoftReset
  cases hp : s.phase with
  | resetHeld => exact absurd hp hnot
  | busy => rfl
  | idle | done | recover => simp only [List.append_nil]; rfl

/-- Settles O43: each CTRL write that does not fault leaves a phase without the flag, and the next read shows it. -/
theorem writeVisibleToTheNextRead : Obligations.WriteVisibleToTheNextRead := by
  intro s t u v w hw hwrite hread
  obtain ⟨hparams, -⟩ := (portWrite_ok hwrite).frame
  rw [portWrite_offCtrl hw] at hwrite
  obtain ⟨hready, hdone⟩ := writeCtrl_ok_flags hwrite
  rw [← hparams] at hw hread hready hdone ⊢
  obtain ⟨rfl, -⟩ := Prod.mk.inj (Except.ok.inj (hread.symm.trans (portRead_offset hw .stat)))
  rw [getLsbD_statWord_ready hw, getLsbD_statWord_done hw]
  exact ⟨hready, hdone⟩

/-- Settles O45: a soft reset leads to RESET_HELD from every phase, its release to RECOVER. -/
theorem softResetRecoversFromAnyPhase : Obligations.SoftResetRecoversFromAnyPhase := by
  intro s hw
  have hheld := writeSoftReset_phase s
  obtain ⟨hparams, hfault, hinst⟩ := writeSoftReset_frame s
  refine ⟨writeSoftReset s, (writeSoftReset s).setPhase .recover, portWrite_ctrlReset hw, ?_, hheld, rfl, hfault, hinst⟩
  rw [← hparams] at hw ⊢
  exact (portWrite_ctrlIdle hw).trans (writeClearGo_recover (.inr hheld))

/-- Settles O46: the word stored is the one Go decodes, and the operation's own step is the only one that logs. -/
theorem handshakeRunsOneOperation : Obligations.HandshakeRunsOneOperation := by
  intro s op hw hidle
  obtain ⟨t, hexec⟩ := exec_next op ((s.setInst (encode s.params op)).setPhase (.busy op))
  have hdone := exec_phase hexec
  have hparams : t.params = s.params := (exec_params hexec).trans rfl
  have hinst := exec_instReg hexec
  have hlog := exec_busLog hexec
  obtain ⟨-, hready, hdoneEn, hfault, -⟩ := exec_hostSide hexec
  refine ⟨s.setInst (encode s.params op), (s.setInst (encode s.params op)).setPhase (.busy op), t,
    t.setPhase .recover, ?_, ?_, rfl, ?_, hdone, ?_, ?_, rfl, hfault, hlog, hready, hdoneEn, hinst⟩
  · exact (portWrite_offInst hw _).trans (writeInst_idle _ hidle)
  · have hgo := portWrite_ctrlGo (s := s.setInst (encode s.params op)) hw
    exact hgo.trans (writeGo_decoded hidle (Laws.dec_encode hw op))
  · exact (engineMove_busy rfl).trans hexec
  · rw [← hparams] at hw ⊢
    rintro off (rfl | rfl)
    · exact ⟨_, portRead_offset hw .stat⟩
    · exact ⟨_, portRead_offset hw .data⟩
  · rw [← hparams] at hw ⊢
    exact (portWrite_ctrlIdle hw).trans (writeClearGo_recover (.inl ⟨op, hdone⟩))

/-- Settles O49: the handler's one move clears both enables, and with them the level. -/
theorem handlerDisablesTheSource : Obligations.HandlerDisablesTheSource := by
  intro s hf hm hrun hhandler hirq
  refine ⟨_, step_of_handler hf hm, ?_⟩
  rw [handlerMove_of_irq (s := s.popMove) hrun hhandler hirq]
  exact ⟨rfl, rfl, rfl, irq_of_disabled rfl rfl, rfl, rfl⟩

end Sys2Proof.Machine

/-! ## The CRC-8 validator: the table as a permutation (42_crc8.md R171, R172, R174)

The table is the polynomial procedure, one shift of which loses nothing: the bit shifted out comes back as bit 7. So one
table step is injective in the byte and in the CRC before it; then the statements that rest on it. -/

namespace Sys2Proof.Machine

/-! ### One shift of the procedure is injective -/

/-- The polynomial 0x8C has bit 7 set, so bit 7 after a shift is bit 0 before it. -/
theorem crc8Shift_getLsbD_seven (c : Byte) : (crc8Shift c).getLsbD 7 = c.getLsbD 0 := by
  unfold crc8Shift
  cases h : c.getLsbD 0 <;> simp

theorem crc8Shift_injective : Function.Injective crc8Shift := by
  intro c c' h
  have hlow : c.getLsbD 0 = c'.getLsbD 0 := by
    rw [← crc8Shift_getLsbD_seven, h, crc8Shift_getLsbD_seven]
  have hhigh : c >>> 1 = c' >>> 1 := by
    unfold crc8Shift at h
    rw [hlow] at h
    split_ifs at h
    · exact (BitVec.xor_left_inj _).mp h
    · exact h
  apply BitVec.eq_of_getLsbD_eq
  intro i hi
  cases i with
  | zero => exact hlow
  | succ k => simpa [Nat.add_comm] using congrArg (·.getLsbD k) hhigh

theorem repeat_injective {α : Type} {f : α → α} (hf : Function.Injective f) (n : Nat) :
    Function.Injective (Nat.repeat f n) := by
  induction n with
  | zero => exact fun _ _ h => h
  | succ n ih => exact hf.comp ih

/-! ### The table -/

/-- 16 rows of 16. -/
theorem length_crc8Table : crc8Table.length = 256 := by
  simp only [crc8Table, List.length_append]
  rfl

theorem crc8Entry_eq_crc8FromPolynomial (i : Byte) : crc8Entry i = crc8FromPolynomial i := by
  decide +revert

/-- The table is a permutation (R172). -/
theorem crc8Entry_injective : Function.Injective crc8Entry := by
  intro i j h
  rw [crc8Entry_eq_crc8FromPolynomial, crc8Entry_eq_crc8FromPolynomial] at h
  exact repeat_injective crc8Shift_injective 8 h

/-- The table's only 0 is at 0. -/
theorem crc8Entry_eq_zero_iff (i : Byte) : crc8Entry i = 0#8 ↔ i = 0#8 := by
  have hzero : crc8Entry 0#8 = 0#8 := by decide
  exact ⟨fun h => crc8Entry_injective (h.trans hzero.symm), fun h => h ▸ hzero⟩

/-! ### Messages -/

theorem crc8Step_left_injective (b : Byte) : Function.Injective fun c => crc8Step c b := by
  intro c c' h
  exact (BitVec.xor_right_inj b).mp (crc8Entry_injective h)

theorem crc8Step_right_injective (c : Byte) : Function.Injective (crc8Step c) := by
  intro b b' h
  exact (BitVec.xor_left_inj c).mp (crc8Entry_injective h)

/-- Bytes that follow keep two CRCs apart. -/
theorem foldl_crc8Step_injective (bytes : List Byte) : Function.Injective fun c => bytes.foldl crc8Step c := by
  induction bytes with
  | nil => exact fun _ _ h => h
  | cons b bytes ih => exact ih.comp (crc8Step_left_injective b)

/-! ### The statements -/

/-- Settles O51: the table has 16 rows of 16, and each entry is computed by the procedure. -/
theorem crcTableIsThePolynomial : Obligations.CrcTableIsThePolynomial :=
  ⟨length_crc8Table, crc8Entry_eq_crc8FromPolynomial⟩

/-- Settles O54: the ninth byte's step ends in the table's 0 exactly if that byte is the CRC of the eight before. -/
theorem crcResidueForm : Obligations.CrcResidueForm := by
  intro r
  rw [Reading.crcOk_iff, Reading.bytes, crc8_append_singleton, crc8Entry_eq_zero_iff, BitVec.xor_eq_zero_iff]
  exact eq_comm

/-- Settles O55: the changed byte's step gives another CRC, and the steps after it keep the two apart. -/
theorem crcDetectsAnyOneByteChange : Obligations.CrcDetectsAnyOneByteChange := by
  intro pre post b b' hne heq
  rw [crc8, crc8, List.foldl_append, List.foldl_append] at heq
  exact hne (crc8Step_right_injective _ (foldl_crc8Step_injective post heq))

end Sys2Proof.Machine

/-! ## The temperature decoder: ranges, exactness and small negative readings (43_temperature_decoder.md section 3)

The fraction is 625 times a number up to 15, which at resolution 12 is the raw value's remainder by 16; then the
statements. -/

namespace Sys2Proof.Machine

/-! ### The fraction -/

theorem toNat_fracOf_le (raw : Half) (eff : Byte) : (fracOf raw eff).toNat ≤ 9375 := by
  rw [toNat_fracOf]
  split_ifs <;> decide

theorem toNat_fracOf_mod (raw : Half) (eff : Byte) : (fracOf raw eff).toNat % 625 = 0 := by
  rw [toNat_fracOf]
  split_ifs <;> rfl

/-- What a bit of the raw value adds, as a multiple of its binary digit. -/
theorem ite_getLsbD_eq_mul (raw : Half) (i a : Nat) :
    (if raw.getLsbD i = true then a else 0) = a * (raw.toNat / 2 ^ i % 2) := by
  simp only [← BitVec.testBit_toNat, Nat.testBit_eq_decide_div_mod_eq, decide_eq_true_iff]
  obtain h | h := Nat.mod_two_eq_zero_or_one (raw.toNat / 2 ^ i) <;> simp [h]

/-- At resolution 12 no bit of the raw value's low four is masked. -/
theorem toNat_fracOf_twelve (raw : Half) : (fracOf raw 12#8).toNat = 625 * (raw.toNat % 16) := by
  have all : 10#8 ≤ 12#8 ∧ 11#8 ≤ 12#8 := by decide
  simp only [toNat_fracOf, all, and_true, ite_getLsbD_eq_mul]
  omega

/-! ### The integer part of a negative reading -/

/-- The magnitude of a negative reading is at most 0x8000 (R193). -/
theorem toNat_magTemp_of_negTemp {lsb msb : Byte} (h : negTemp msb = true) :
    (magTemp (rawTemp lsb msb)).toNat = 0x10000 - (rawTemp lsb msb).toNat ∧ 0x8000 ≤ (rawTemp lsb msb).toNat := by
  have hhigh := (negTemp_eq_true_iff lsb msb).mp h
  exact ⟨toNat_magTemp (by omega), hhigh⟩

/-! ### The statements -/

/-- Settles O58: a sixteenth of a magnitude up to 0x8000, or of a raw value below 0x8000. -/
theorem decoderOutputRanges : Obligations.DecoderOutputRanges := by
  intro lsb msb res
  have hfrac := toNat_fracOf_le (rawTemp lsb msb) (resEff res)
  have hmod := toNat_fracOf_mod (rawTemp lsb msb) (resEff res)
  simp only [decodeTemperature]
  cases hneg : negTemp msb with
  | true =>
    obtain ⟨hmag, hhigh⟩ := toNat_magTemp_of_negTemp (lsb := lsb) hneg
    rw [toInt_intPartOf_true, hmag]
    refine ⟨by omega, ?_, nofun, hfrac, hmod⟩
    rw [if_pos rfl]
    omega
  | false =>
    have hlow : ¬ 0x8000 ≤ (rawTemp lsb msb).toNat := by simp [← negTemp_eq_true_iff, hneg]
    rw [toInt_intPartOf_false]
    refine ⟨by omega, ?_, fun _ => by omega, hfrac, hmod⟩
    rw [if_neg nofun]
    omega

/-- Settles O59: quotient and remainder by 16 are the raw value; the negative example is computed. -/
theorem decoderExactWhenNotNegative : Obligations.DecoderExactWhenNotNegative := by
  refine ⟨fun lsb msb hneg => ?_, by decide, by decide⟩
  have heff : resEff 12#8 = 12#8 := by decide
  simp only [decodeTemperature, hneg, heff, toInt_intPartOf_false, toNat_fracOf_twelve]
  omega

/-- Settles O60: from 0xFFF1 up the magnitude is below 16; the resolution is no input of the integer part. -/
theorem decoderLosesSmallSigns : Obligations.DecoderLosesSmallSigns := by
  refine ⟨fun lsb msb res hraw => ?_, fun lsb msb res res' => rfl⟩
  have hraw' : 0xFFF1 ≤ (rawTemp lsb msb).toNat := hraw
  have hneg : negTemp msb = true := (negTemp_eq_true_iff lsb msb).mpr (by omega)
  obtain ⟨hmag, -⟩ := toNat_magTemp_of_negTemp (lsb := lsb) hneg
  apply BitVec.eq_of_toInt_eq
  rw [decodeTemperature, hneg, toInt_intPartOf_true, hmag, BitVec.toInt_zero]
  omega

end Sys2Proof.Machine

/-! ## PRIM under every interleaving (30_encoding.md R90, 45_host_protocol.md section 2)

The stages of PRIM: at each, the rest of the Host's program and what then holds of the block. Every move of every agent
keeps the Host at a stage or moves it to the next; so no stage has a fault, and at HALT the last one holds. -/

namespace Sys2Proof.Machine

/-! ### The rest of the Host's program -/

/-- The current statement and those after it. -/
def HostState.rest (h : HostState) : List HostStmt :=
  h.prog.drop h.hpc

theorem HostState.current_eq_head? (h : HostState) : h.current = h.rest.head? :=
  List.head?_drop.symm

theorem HostState.current_of_rest {h : HostState} {st : HostStmt} {l : List HostStmt} (hr : h.rest = st :: l) :
    h.current = some st := by
  rw [h.current_eq_head?, hr, List.head?_cons]

theorem HostState.rest_advance {h : HostState} {st : HostStmt} {l : List HostStmt} (hr : h.rest = st :: l) :
    h.advance.rest = l := by
  have hdrop : h.advance.rest = h.rest.tail := List.tail_drop.symm
  rw [hdrop, hr, List.tail_cons]

/-! ### The Host's move at each kind of statement of PRIM -/

section
variable {s : State} {l : List HostStmt}

theorem hostMove_of_ok {st : HostStmt} {t : State} (hr : s.host.rest = st :: l) (h : hostStmt st s = .ok t) :
    hostMove s = t := by
  simp [hostMove, HostState.current_of_rest hr, h]

/-- Waiting for a Status flag: one read, then on where the flag is up. -/
theorem hostMove_waitFor {bit : Nat} (hw : s.params.wellFormed = true)
    (hr : s.host.rest = waitFor s.params bit :: l) :
    hostMove s =
      if (statWord s s.drawn).getLsbD bit = true then (s.advanceDraws 1).hostAdvance else s.advanceDraws 1 := by
  have hread : portRead s.params.offStat 4 s = .ok (statWord s s.drawn, s.advanceDraws 1) := portRead_offset hw .stat
  exact hostMove_of_ok hr (by simp [waitFor, hostStmt, hostPoll, hread])

theorem hostMove_wr {off : Nat} {v : Word} {t : State} (hr : s.host.rest = .wr off v :: l)
    (h : portWrite off 4 v s = .ok t) : hostMove s = t.hostAdvance :=
  hostMove_of_ok hr (by simp [hostStmt, hostStore, h])

theorem hostMove_rd {x : Fin 16} {r : Reg} (hw : s.params.wellFormed = true)
    (hr : s.host.rest = .rd x (r.offset s.params) :: l) :
    hostMove s = (readReg r s).2.hostAssign x (readReg r s).1 :=
  hostMove_of_ok hr (by simp [hostStmt, hostLoad, portRead_offset hw])

theorem hostMove_andi {x m : Fin 16} {v imm : Word} (hr : s.host.rest = .andi x m imm :: l)
    (hm : s.host.vars[m] = some v) : hostMove s = s.hostAssign x (v &&& imm) :=
  hostMove_of_ok hr (hostCompute_of_written x _ hm)

end

/-! ### The result of an operation as the Host masks it (R90) -/

theorem and_bitMask {i : Nat} (hi : i < 32) (w : Word) :
    w &&& bitMask i = if w.getLsbD i = true then bitMask i else 0#32 := by
  apply BitVec.eq_of_getLsbD_eq
  intro j _
  rw [BitVec.getLsbD_and, getLsbD_bitMask hi]
  by_cases hj : j = i
  · subst hj
    cases h : w.getLsbD j <;> simp [getLsbD_bitMask hi]
  · split_ifs <;> simp [getLsbD_bitMask hi, hj]

theorem and_byteMask (w : Word) : w &&& 0xFF#32 = (w.extractLsb' 0 8).setWidth 32 := by
  have hmask : ∀ i : Fin 32, (0xFF#32 : Word).getLsbD i = decide (i.val < 8) := by decide
  apply BitVec.eq_of_getLsbD_eq
  intro i hi
  rw [BitVec.getLsbD_and, hmask ⟨i, hi⟩]
  simp [hi, Bool.and_comm]

/-- The word ReadResult leaves in the result variable, from the latches; none for a write. -/
def resultWord (s : State) : Instr → Option Word
  | .owReset => some (if s.presenceFlag then bitMask s.params.statPresence else 0#32)
  | .owRdbit => some (if s.rxData.getLsbD 0 then 1#32 else 0#32)
  | .owRdbyte => some (s.rxData.setWidth 32)
  | .owWrbit _ => none
  | .owWrbyte _ => none

/-- The register ReadResult reads and the mask it applies; none for a write. -/
def resultAccess (P : Params) : Instr → Option (Reg × Word)
  | .owReset => some (.stat, bitMask P.statPresence)
  | .owRdbit => some (.data, 1#32)
  | .owRdbyte => some (.data, 0xFF#32)
  | .owWrbit _ => none
  | .owWrbyte _ => none

theorem readResult_of_none {P : Params} {op : Instr} (x : Fin 16) (h : resultAccess P op = none) :
    readResult P x op = [] := by
  cases op with
  | owReset | owRdbit | owRdbyte => cases h
  | owWrbit | owWrbyte => rfl

theorem readResult_of_some {P : Params} {op : Instr} {r : Reg} {m : Word} (x : Fin 16)
    (h : resultAccess P op = some (r, m)) : readResult P x op = [.rd x (r.offset P), .andi x x m] := by
  cases op with
  | owReset | owRdbit | owRdbyte => cases h; rfl
  | owWrbit | owWrbyte => cases h

theorem resultWord_of_none {s : State} {op : Instr} (h : resultAccess s.params op = none) : resultWord s op = none := by
  cases op with
  | owReset | owRdbit | owRdbyte => cases h
  | owWrbit | owWrbyte => rfl

/-- In DONE the register read shows the result, under the mask nothing else (R28, R29). -/
theorem resultWord_of_some {s : State} {op : Instr} {r : Reg} {m : Word} (hw : s.params.wellFormed = true)
    (hd : s.phase = .done op) (h : resultAccess s.params op = some (r, m)) :
    resultWord s op = some ((readReg r s).1 &&& m) := by
  have hstat : (readReg .stat s).1 = statWord s s.drawn := rfl
  have hdata : (readReg .data s).1 = dataWord s s.drawn := rfl
  cases op with
  | owReset =>
    cases h
    obtain ⟨-, -, -, -, -, hlt⟩ := Params.wellFormed_stat hw
    rw [hstat, and_bitMask hlt, getLsbD_statWord_presence hw, if_pos hd, resultWord]
  | owRdbit =>
    cases h
    have hmask : (1#32 : Word) = bitMask 0 := rfl
    rw [hdata, hmask, and_bitMask (by decide), getLsbD_dataWord_readBit hd, if_pos rfl, resultWord, hmask]
  | owRdbyte =>
    cases h
    rw [hdata, and_byteMask, dataWord_readByte hd, low_byte_append, resultWord]
  | owWrbit | owWrbyte => cases h

/-! ### The stages of PRIM -/

/-- Where the Host stands in PRIM followed by HALT. -/
inductive PrimStage where
  /-- AwaitReady. -/
  | awaitReady
  /-- IssueGo, the write of INST. -/
  | storeInst
  /-- IssueGo, the write of CTRL. -/
  | go
  /-- AwaitDone. -/
  | awaitDone
  /-- ReadResult, the read of a register. -/
  | read (r : Reg) (m : Word)
  /-- ReadResult, the mask. -/
  | mask (m : Word)
  /-- ClearGo. -/
  | clear
  /-- HALT. -/
  | ended

/-- The rest of the program at a stage. -/
def PrimStage.code (P : Params) (op : Instr) (x : Fin 16) : PrimStage → List HostStmt
  | .ended => [.halt]
  | .clear => [.wr P.offCtrl P.ctrlIdle, .halt]
  | .mask m => [.andi x x m, .wr P.offCtrl P.ctrlIdle, .halt]
  | .read r m => [.rd x (r.offset P), .andi x x m, .wr P.offCtrl P.ctrlIdle, .halt]
  | .awaitDone => waitFor P P.statDone :: (readResult P x op ++ [.wr P.offCtrl P.ctrlIdle, .halt])
  | .go =>
    [.wr P.offCtrl (bitMask P.ctrlGo), waitFor P P.statDone] ++
      (readResult P x op ++ [.wr P.offCtrl P.ctrlIdle, .halt])
  | .storeInst =>
    [.wr P.offInst (encode P op), .wr P.offCtrl (bitMask P.ctrlGo), waitFor P P.statDone] ++
      (readResult P x op ++ [.wr P.offCtrl P.ctrlIdle, .halt])
  | .awaitReady => prim P op x ++ [.halt]

theorem PrimStage.code_awaitReady (P : Params) (op : Instr) (x : Fin 16) :
    PrimStage.awaitReady.code P op x = waitFor P P.statReady :: PrimStage.storeInst.code P op x := by
  simp [PrimStage.code, prim]

/-- The operation is in DONE and its events, and nothing else, have been appended. -/
def Completed (op : Instr) (log : List BusEvent) (s : State) : Prop :=
  s.phase = .done op ∧ s.busLog = log ++ resultEvents s op

theorem Completed.phase {op : Instr} {log : List BusEvent} {s : State} (h : Completed op log s) :
    s.phase = .done op :=
  h.1

/-- A result stands in the result variable. -/
def ResultHeld (op : Instr) (x : Fin 16) (s : State) : Prop :=
  ∀ w, resultWord s op = some w → s.host.vars[x] = some w

/-- What holds of the block and of the result variable at a stage. -/
def PrimStage.Holds (op : Instr) (x : Fin 16) (log : List BusEvent) (s : State) : PrimStage → Prop
  | .awaitReady => (s.phase = .recover ∨ s.phase = .idle) ∧ s.busLog = log
  | .storeInst => s.phase = .idle ∧ s.busLog = log
  | .go => s.phase = .idle ∧ s.busLog = log ∧ s.instReg = encode s.params op
  | .awaitDone => s.phase = .busy op ∧ s.busLog = log ∨ Completed op log s
  | .read r m => Completed op log s ∧ resultAccess s.params op = some (r, m)
  | .mask m => Completed op log s ∧ ∃ w, s.host.vars[x] = some w ∧ resultWord s op = some (w &&& m)
  | .clear => Completed op log s ∧ ResultHeld op x s
  | .ended => (s.phase = .recover ∨ s.phase = .idle) ∧ s.busLog = log ++ resultEvents s op ∧ ResultHeld op x s

/-- The Host stands at a stage of PRIM, with no fault on record. -/
structure AtStage (op : Instr) (x : Fin 16) (log : List BusEvent) (st : PrimStage) (s : State) : Prop where
  fault : s.fault = none
  wellFormed : s.params.wellFormed = true
  rest : s.host.rest = st.code s.params op x
  holds : st.Holds op x log s

section
variable {op : Instr} {x : Fin 16} {log : List BusEvent} {st : PrimStage} {s t : State}

/-- A stage is not asked whose move is next. -/
theorem AtStage.popMove (h : AtStage op x log st s) : AtStage op x log st s.popMove where
  fault := h.fault
  wellFormed := h.wellFormed
  rest := h.rest
  holds := by
    have hholds := h.holds
    cases st <;> exact hholds

/-- The handler changes no variable and, of the block, the enables only. -/
theorem AtStage.handlerMove (h : AtStage op x log st s) : AtStage op x log st (handlerMove s) := by
  obtain he | ⟨-, -, -, he⟩ := handlerMove_cases s
  · rwa [he]
  · rw [he]
    refine ⟨h.fault, h.wellFormed, h.rest, ?_⟩
    have hholds := h.holds
    cases st <;> exact hholds

/-- With no operation in flight the Engine's step can only raise Ready. -/
theorem engineMove_of_atRest (hp : s.phase = .recover ∨ s.phase = .idle) (h : engineMove s = .next t) :
    t = s.setPhase .idle := by
  obtain hp | hp := hp
  · exact (Host.Outcome.next.inj ((engineMove_recover hp).symm.trans h)).symm
  · rw [engineMove_not_enabled (by rw [hp]; rfl)] at h
    obtain rfl := Host.Outcome.next.inj h
    rw [State.setPhase, ← hp]

theorem engineMove_of_done (hp : s.phase = .done op) (h : engineMove s = .next t) : t = s := by
  rw [engineMove_not_enabled (by rw [hp]; rfl)] at h
  exact (Host.Outcome.next.inj h).symm

theorem engineMove_frame (h : engineMove s = .next t) :
    t.fault = s.fault ∧ t.params = s.params ∧ t.host = s.host := by
  cases hp : s.phase with
  | busy op =>
    rw [engineMove_busy hp] at h
    obtain ⟨hhost, -, -, hfault, -⟩ := exec_hostSide h
    exact ⟨hfault, exec_params h, hhost⟩
  | done op => simp [engineMove_of_done hp h]
  | recover => simp [engineMove_of_atRest (.inl hp) h]
  | idle => simp [engineMove_of_atRest (.inr hp) h]
  | resetHeld =>
    rw [engineMove_not_enabled (by rw [hp]; rfl)] at h
    simp [Host.Outcome.next.inj h]

/-- At a stage the Engine completes the operation under AwaitDone, raises Ready before and after it, and does nothing
else. -/
theorem PrimStage.Holds.engineMove (hholds : st.Holds op x log s) (h : engineMove s = .next t) :
    st.Holds op x log t := by
  cases st with
  | awaitReady =>
    obtain ⟨hp, hlog⟩ := hholds
    obtain rfl := engineMove_of_atRest hp h
    exact ⟨.inr rfl, hlog⟩
  | storeInst =>
    obtain ⟨hp, hlog⟩ := hholds
    obtain rfl := engineMove_of_atRest (.inr hp) h
    exact ⟨rfl, hlog⟩
  | go =>
    obtain ⟨hp, hlog⟩ := hholds
    obtain rfl := engineMove_of_atRest (.inr hp) h
    exact ⟨rfl, hlog⟩
  | awaitDone =>
    obtain ⟨hp, hlog⟩ | hdone := hholds
    · rw [engineMove_busy hp] at h
      exact .inr ⟨exec_phase h, hlog ▸ exec_busLog h⟩
    · obtain rfl := engineMove_of_done hdone.phase h
      exact .inr hdone
  | read | mask | clear =>
    have hdone : Completed op log s := hholds.1
    obtain rfl := engineMove_of_done hdone.phase h
    exact hholds
  | ended =>
    obtain ⟨hp, hlog, hheld⟩ := hholds
    obtain rfl := engineMove_of_atRest hp h
    exact ⟨.inr rfl, hlog, hheld⟩

theorem AtStage.engineMove (h : AtStage op x log st s) (hmove : engineMove s = .next t) : AtStage op x log st t := by
  obtain ⟨hfault, hparams, hhost⟩ := engineMove_frame hmove
  refine ⟨hfault.trans h.fault, ?_, ?_, h.holds.engineMove hmove⟩
  · rw [hparams]; exact h.wellFormed
  · rw [hhost, hparams]; exact h.rest

/-- One Host move of PRIM: the statement of the stage does not fault, and leads to a stage again. -/
theorem AtStage.hostMove (h : AtStage op x log st s) : ∃ st', AtStage op x log st' (hostMove s) := by
  obtain ⟨hf, hw, hr, hholds⟩ := h
  cases st with
  | awaitReady =>
    obtain ⟨hp, hlog⟩ := hholds
    have hcode := hr.trans (PrimStage.code_awaitReady s.params op x)
    rw [hostMove_waitFor hw hcode, getLsbD_statWord_ready hw]
    obtain hp | hp := hp
    · rw [hp, Phase.ready_recover, if_neg Bool.false_ne_true]
      exact ⟨.awaitReady, hf, hw, hr, .inl hp, hlog⟩
    · rw [hp, Phase.ready_idle, if_pos rfl]
      exact ⟨.storeInst, hf, hw, HostState.rest_advance hcode, hp, hlog⟩
  | storeInst =>
    obtain ⟨hp, hlog⟩ := hholds
    rw [hostMove_wr hr ((portWrite_offInst hw _).trans (writeInst_idle _ hp))]
    exact ⟨.go, hf, hw, HostState.rest_advance hr, hp, hlog, rfl⟩
  | go =>
    obtain ⟨hp, hlog, hinst⟩ := hholds
    have hdec : dec s.params s.instReg = some op := hinst ▸ Laws.dec_encode hw op
    rw [hostMove_wr hr ((portWrite_ctrlGo hw).trans (writeGo_decoded hp hdec))]
    exact ⟨.awaitDone, hf, hw, HostState.rest_advance hr, .inl ⟨rfl, hlog⟩⟩
  | awaitDone =>
    rw [hostMove_waitFor hw hr, getLsbD_statWord_done hw]
    obtain ⟨hp, hlog⟩ | hdone := hholds
    · rw [hp, Phase.isDone_busy, if_neg Bool.false_ne_true]
      exact ⟨.awaitDone, hf, hw, hr, .inl ⟨hp, hlog⟩⟩
    · rw [hdone.phase, Phase.isDone_done, if_pos rfl]
      have hrest := HostState.rest_advance hr
      cases ha : resultAccess s.params op with
      | none =>
        rw [readResult_of_none x ha] at hrest
        refine ⟨.clear, hf, hw, hrest, hdone, fun w hres => ?_⟩
        cases (resultWord_of_none ha).symm.trans hres
      | some access =>
        rw [readResult_of_some x ha] at hrest
        exact ⟨.read access.1 access.2, hf, hw, hrest, hdone, ha⟩
  | read r m =>
    obtain ⟨hdone, ha⟩ := hholds
    have hres := resultWord_of_some hw hdone.phase ha
    rw [hostMove_rd hw hr]
    obtain hu | hu := readReg_state r s <;> rw [hu] <;>
      exact ⟨.mask m, hf, hw, HostState.rest_advance hr, hdone, _, by simp, hres⟩
  | mask m =>
    obtain ⟨hdone, v, hv, hres⟩ := hholds
    rw [hostMove_andi hr hv]
    refine ⟨.clear, hf, hw, HostState.rest_advance hr, hdone, fun w hw' => ?_⟩
    obtain rfl := Option.some.inj (hres.symm.trans hw')
    simp
  | clear =>
    obtain ⟨⟨hp, hlog⟩, hheld⟩ := hholds
    rw [hostMove_wr hr ((portWrite_ctrlIdle hw).trans (writeClearGo_recover (.inl ⟨op, hp⟩)))]
    exact ⟨.ended, hf, hw, HostState.rest_advance hr, .inl rfl, hlog, hheld⟩
  | ended =>
    rw [hostMove_halt (HostState.current_of_rest hr)]
    exact ⟨.ended, hf, hw, hr, hholds⟩

theorem AtStage.step (h : AtStage op x log st s) (hstep : step s = .next t) : ∃ st', AtStage op x log st' t := by
  cases hm : s.nextMove with
  | host =>
    rw [step_of_host h.fault hm] at hstep
    obtain rfl := Host.Outcome.next.inj hstep
    exact h.popMove.hostMove
  | handler =>
    rw [step_of_handler h.fault hm] at hstep
    obtain rfl := Host.Outcome.next.inj hstep
    exact ⟨st, h.popMove.handlerMove⟩
  | engine =>
    rw [step_of_engine h.fault hm] at hstep
    exact ⟨st, h.popMove.engineMove hstep⟩

theorem AtStage.reaches (h : AtStage op x log st s) (hreach : Reaches s t) : ∃ st', AtStage op x log st' t := by
  induction hreach with
  | refl => exact ⟨st, h⟩
  | tail _ hstep ih =>
    obtain ⟨st', h'⟩ := ih
    exact h'.step hstep

/-- Only the last stage stands at HALT. -/
theorem AtStage.ended_of_halt (h : AtStage op x log st s) (hc : s.host.current = some .halt) : st = .ended := by
  rw [s.host.current_eq_head?, h.rest] at hc
  cases st with
  | ended => rfl
  | awaitReady => simp [PrimStage.code_awaitReady, waitFor] at hc
  | storeInst | go | read | mask | clear => simp [PrimStage.code] at hc
  | awaitDone => simp [PrimStage.code, waitFor] at hc

end

/-! ### The statement -/

/-- Settles O47: a clean entry is AwaitReady's stage, every reachable state is at a stage, and at HALT it is the
last. -/
theorem primNeverFaultsAndAppendsOneOperation : Obligations.PrimNeverFaultsAndAppendsOneOperation := by
  rintro s op x log r d hw ⟨hf, hp, hlog, -⟩ hprog hhpc t hreach
  have hrest : s.host.rest = PrimStage.awaitReady.code s.params op x := by
    rw [HostState.rest, hprog, hhpc]
    rfl
  have hentry : AtStage op x log .awaitReady s := ⟨hf, hw, hrest, hp, hlog⟩
  obtain ⟨st, hst⟩ := hentry.reaches hreach
  refine ⟨hst.fault, fun ⟨_, hhalt⟩ => ?_⟩
  obtain rfl := hst.ended_of_halt hhalt
  obtain ⟨hphase, hevents, hheld⟩ := hst.holds
  refine ⟨hevents, hphase, ?_, ?_, ?_⟩
  · rintro rfl
    rw [← reaches_params hreach]
    exact hheld _ rfl
  · rintro rfl
    exact hheld _ rfl
  · rintro rfl
    exact hheld _ rfl

end Sys2Proof.Machine
